-- ==== Sys2Proof/Word.lean ====
section
/-!
DEFINITION. The words of the Flicker Engine. Bit 0 is the least significant bit of every one (rule R11); every
value is unsigned (rule R12).
-/

namespace Sys2Proof

/-- The interface command `cmd[1:0] = {rst, tick}` (rule R60). -/
abbrev CmdWord := BitVec 2

/-- A value of the frame counter `FC`, `FC_WIDTH = 5` bits (rules R9 and R21). -/
abbrev FramePos := BitVec 5

/-- A value of the shift register `SR`, `SR_WIDTH = 32` bits (rules R9 and R22). -/
abbrev SrWord := BitVec 32

/-- A value of the duty register `DUTY`, `DUTY_WIDTH = 8` bits (rules R9 and R24); also one byte of `SR` (rule R23). -/
abbrev Byte := BitVec 8

end Sys2Proof
end

