-- ==== Sys2Proof/Syntax.lean ====
section
/-!
DEFINITION. The operations of the block: one constructor for every row of the opcode table. Rule R15: the interface
commands play the part of instructions, and the selections inside a `TICK` have rows too. A row whose mask leaves bits
free carries its whole selecting field as an operand, so that no bit of an encoding is lost (assumption 2).
-/

namespace Sys2Proof

/-- The five fields that select an operation, the `format` column of the opcode table. -/
inductive Format where
  /-- `cmd[1:0]`, the interface command (rule R60). -/
  | ifaceCmd
  /-- `fc1[4:0]`, the frame position (rule R63). -/
  | framePolicy
  /-- `b0 = SR[0]`, the LFSR branch (rule R64). -/
  | lfsrSelect
  /-- `g = SR[3:2]`, the gate field (rule R64). -/
  | gateSelect
  /-- `d = SR[4]`, the duty branch (rule R64). -/
  | dutySelect
  deriving DecidableEq, Repr

/-- The width of the selecting field, the `width` column of the opcode table. -/
def Format.width : Format → Nat
  | .ifaceCmd => 2
  | .framePolicy => 5
  | .lfsrSelect => 1
  | .gateSelect => 2
  | .dutySelect => 1

/-- The operations, in the order of the opcode table. -/
inductive Instr where
  /-- `HOLD` (rule R86). -/
  | hold
  /-- `TICK` (rule R80). -/
  | tick
  /-- `RESET` (rule R160), by either of its two command words `0b10` and `0b11` (rule R66). -/
  | reset (cmd : CmdWord)
  /-- `FP_ADVANCE`, frame position 0 (rule R63). -/
  | fpAdvance
  /-- `FP_ADVANCE_IF_08`, frame position 8 (rule R63). -/
  | fpAdvanceIf08
  /-- `FP_ADVANCE_IF_16`, frame position 16 (rule R63). -/
  | fpAdvanceIf16
  /-- `FP_ADVANCE_IF_24`, frame position 24 (rule R63). -/
  | fpAdvanceIf24
  /-- `FP_EMIT`, frame position 31 (rule R63). -/
  | fpEmit
  /-- `FP_IDLE_L1`, a frame position with `fc1[2:0] = 1` (rule R63). -/
  | fpIdleL1 (pos : FramePos)
  /-- `FP_IDLE_L2`, a frame position with `fc1[2:0] = 2` (rule R63). -/
  | fpIdleL2 (pos : FramePos)
  /-- `FP_IDLE_L3`, a frame position with `fc1[2:0] = 3` (rule R63). -/
  | fpIdleL3 (pos : FramePos)
  /-- `FP_IDLE_L4`, a frame position with `fc1[2:0] = 4` (rule R63). -/
  | fpIdleL4 (pos : FramePos)
  /-- `FP_IDLE_L5`, a frame position with `fc1[2:0] = 5` (rule R63). -/
  | fpIdleL5 (pos : FramePos)
  /-- `FP_IDLE_L6`, a frame position with `fc1[2:0] = 6` (rule R63). -/
  | fpIdleL6 (pos : FramePos)
  /-- `FP_IDLE_07`, frame position 7 (rule R63). -/
  | fpIdle07
  /-- `FP_IDLE_15`, frame position 15 (rule R63). -/
  | fpIdle15
  /-- `FP_IDLE_23`, frame position 23 (rule R63). -/
  | fpIdle23
  /-- `LFSR_SHIFT`, the LFSR branch without feedback (rule R100). -/
  | lfsrShift
  /-- `LFSR_SHIFT_XOR`, the LFSR branch with feedback (rule R100). -/
  | lfsrShiftXor
  /-- `GATE_PASS`, gate field `0b00` (rule R82). -/
  | gatePass
  /-- `GATE_BLOCK_B2`, a gate field with `SR[2] = 1` (rule R82). -/
  | gateBlockB2 (g : BitVec 2)
  /-- `GATE_BLOCK_B3`, gate field `0b10` (rule R82). -/
  | gateBlockB3
  /-- `DUTY_FULL`, `SR[4] = 1` (rule R121). -/
  | dutyFull
  /-- `DUTY_NIBBLE`, `SR[4] = 0` (rule R122). -/
  | dutyNibble
  deriving DecidableEq, Repr

/-- The field that selects an operation. -/
def Instr.format : Instr → Format
  | .hold | .tick | .reset _ => .ifaceCmd
  | .fpAdvance | .fpAdvanceIf08 | .fpAdvanceIf16 | .fpAdvanceIf24 | .fpEmit => .framePolicy
  | .fpIdleL1 _ | .fpIdleL2 _ | .fpIdleL3 _ | .fpIdleL4 _ | .fpIdleL5 _ | .fpIdleL6 _ => .framePolicy
  | .fpIdle07 | .fpIdle15 | .fpIdle23 => .framePolicy
  | .lfsrShift | .lfsrShiftXor => .lfsrSelect
  | .gatePass | .gateBlockB2 _ | .gateBlockB3 => .gateSelect
  | .dutyFull | .dutyNibble => .dutySelect

end Sys2Proof
end

