-- ==== Sys2Proof/WellFormed.lean ====
section
/-!
DEFINITION. Which operations are well formed: an operand must be a field value its own row of the opcode table matches.
-/

namespace Sys2Proof

/-- The operand of an operation lies in its row: `RESET` is `cmd[1] = 1` (rule R66); `FP_IDLE_L<k>` is `fc1[2:0] = k`
(rule R63); `GATE_BLOCK_B2` is `g[0] = 1` (rule R64). The other rows have no operand. -/
def Instr.wellFormed : Instr → Bool
  | .reset cmd => cmd &&& 0b10#2 == 0b10#2
  | .fpIdleL1 pos => pos &&& 0b00111#5 == 0b00001#5
  | .fpIdleL2 pos => pos &&& 0b00111#5 == 0b00010#5
  | .fpIdleL3 pos => pos &&& 0b00111#5 == 0b00011#5
  | .fpIdleL4 pos => pos &&& 0b00111#5 == 0b00100#5
  | .fpIdleL5 pos => pos &&& 0b00111#5 == 0b00101#5
  | .fpIdleL6 pos => pos &&& 0b00111#5 == 0b00110#5
  | .gateBlockB2 g => g &&& 0b01#2 == 0b01#2
  | .hold | .tick | .fpAdvance | .fpAdvanceIf08 | .fpAdvanceIf16 | .fpAdvanceIf24 | .fpEmit => true
  | .fpIdle07 | .fpIdle15 | .fpIdle23 | .lfsrShift | .lfsrShiftXor => true
  | .gatePass | .gateBlockB3 | .dutyFull | .dutyNibble => true

end Sys2Proof
end

