-- ==== Sys2Proof/Decode.lean ====
section
/-!
DEFINITION. Decoding and encoding. The hardware selects by five fields (the formats), each at its own place: the command
at the ports, the frame position and three fields of `SR` inside a `TICK`. Each field's decoder is total on the field
(rules R61, R63 and R64); `decode` takes any byte for a field and rejects, by name, one the field cannot hold.
-/

namespace Sys2Proof

/-! ### The field decoders -/

/-- `cmd[1:0]` (rule R60): `0b00` is `HOLD`, `0b01` is `TICK`, `0b10` and `0b11` are `RESET`. -/
def decodeCommand (cmd : CmdWord) : Instr :=
  if cmd = 0b00#2 then .hold
  else if cmd = 0b01#2 then .tick
  else .reset cmd

/-- `fc1[4:0]` (rule R63), the frame-policy table. Only position 23 is left for the last line. -/
def decodePolicy (pos : FramePos) : Instr :=
  if pos = 0b00000#5 then .fpAdvance
  else if pos = 0b01000#5 then .fpAdvanceIf08
  else if pos = 0b10000#5 then .fpAdvanceIf16
  else if pos = 0b11000#5 then .fpAdvanceIf24
  else if pos = 0b11111#5 then .fpEmit
  else if pos.extractLsb' 0 3 = 1#3 then .fpIdleL1 pos
  else if pos.extractLsb' 0 3 = 2#3 then .fpIdleL2 pos
  else if pos.extractLsb' 0 3 = 3#3 then .fpIdleL3 pos
  else if pos.extractLsb' 0 3 = 4#3 then .fpIdleL4 pos
  else if pos.extractLsb' 0 3 = 5#3 then .fpIdleL5 pos
  else if pos.extractLsb' 0 3 = 6#3 then .fpIdleL6 pos
  else if pos = 0b00111#5 then .fpIdle07
  else if pos = 0b01111#5 then .fpIdle15
  else .fpIdle23

/-- `b0` (rule R64, under the normative polarity): 0 is `LFSR_SHIFT`, 1 is `LFSR_SHIFT_XOR`. -/
def decodeLfsr (b0 : BitVec 1) : Instr :=
  if b0 = 1#1 then .lfsrShiftXor else .lfsrShift

/-- `g` (rule R64): `0b00` is `GATE_PASS`, `g[0] = 1` is `GATE_BLOCK_B2`, `0b10` is `GATE_BLOCK_B3`. -/
def decodeGate (g : BitVec 2) : Instr :=
  if g = 0b00#2 then .gatePass
  else if g = 0b10#2 then .gateBlockB3
  else .gateBlockB2 g

/-- `d` (rule R64): 1 is `DUTY_FULL`, 0 is `DUTY_NIBBLE`. -/
def decodeDuty (d : BitVec 1) : Instr :=
  if d = 1#1 then .dutyFull else .dutyNibble

/-! ### Decoding a byte of a named field -/

/-- What decoding a byte gives: an operation, or a rejection that says the field has no such value. -/
inductive Decoded where
  | instr (i : Instr)
  | outsideField (fmt : Format) (b : Byte)
  deriving DecidableEq, Repr

/-- Decode the byte `b` as a value of the field `fmt`: total on any byte. -/
def decode (fmt : Format) (b : Byte) : Decoded :=
  if b.toNat < 2 ^ fmt.width then
    match fmt with
    | .ifaceCmd => .instr (decodeCommand (b.setWidth 2))
    | .framePolicy => .instr (decodePolicy (b.setWidth 5))
    | .lfsrSelect => .instr (decodeLfsr (b.setWidth 1))
    | .gateSelect => .instr (decodeGate (b.setWidth 2))
    | .dutySelect => .instr (decodeDuty (b.setWidth 1))
  else .outsideField fmt b

/-! ### Encoding -/

/-- The word of an operation in its own field, from the tables of rules R60, R63 and R64. -/
def encode : Instr → Byte
  | .hold => 0b00#8
  | .tick => 0b01#8
  | .reset cmd => cmd.setWidth 8
  | .fpAdvance => 0b00000#8
  | .fpAdvanceIf08 => 0b01000#8
  | .fpAdvanceIf16 => 0b10000#8
  | .fpAdvanceIf24 => 0b11000#8
  | .fpEmit => 0b11111#8
  | .fpIdleL1 pos | .fpIdleL2 pos | .fpIdleL3 pos | .fpIdleL4 pos | .fpIdleL5 pos | .fpIdleL6 pos => pos.setWidth 8
  | .fpIdle07 => 0b00111#8
  | .fpIdle15 => 0b01111#8
  | .fpIdle23 => 0b10111#8
  | .lfsrShift => 0b0#8
  | .lfsrShiftXor => 0b1#8
  | .gatePass => 0b00#8
  | .gateBlockB2 g => g.setWidth 8
  | .gateBlockB3 => 0b10#8
  | .dutyFull => 0b1#8
  | .dutyNibble => 0b0#8

/-! ### The opcode table's own rows -/

/-- One row of the opcode table: its field, its match and its mask. -/
structure Row where
  format : Format
  pattern : Byte
  mask : Byte
  deriving DecidableEq, Repr

/-- A byte lies in a row when its masked bits are the row's pattern. -/
def Row.hits (r : Row) (b : Byte) : Bool := b &&& r.mask == r.pattern

/-- The row of an operation, `match` and `mask` as the opcode table has them. -/
def Instr.row : Instr → Row
  | .hold => ⟨.ifaceCmd, 0b00, 0b11⟩
  | .tick => ⟨.ifaceCmd, 0b01, 0b11⟩
  | .reset _ => ⟨.ifaceCmd, 0b10, 0b10⟩
  | .fpAdvance => ⟨.framePolicy, 0b00000, 0b11111⟩
  | .fpAdvanceIf08 => ⟨.framePolicy, 0b01000, 0b11111⟩
  | .fpAdvanceIf16 => ⟨.framePolicy, 0b10000, 0b11111⟩
  | .fpAdvanceIf24 => ⟨.framePolicy, 0b11000, 0b11111⟩
  | .fpEmit => ⟨.framePolicy, 0b11111, 0b11111⟩
  | .fpIdleL1 _ => ⟨.framePolicy, 0b00001, 0b00111⟩
  | .fpIdleL2 _ => ⟨.framePolicy, 0b00010, 0b00111⟩
  | .fpIdleL3 _ => ⟨.framePolicy, 0b00011, 0b00111⟩
  | .fpIdleL4 _ => ⟨.framePolicy, 0b00100, 0b00111⟩
  | .fpIdleL5 _ => ⟨.framePolicy, 0b00101, 0b00111⟩
  | .fpIdleL6 _ => ⟨.framePolicy, 0b00110, 0b00111⟩
  | .fpIdle07 => ⟨.framePolicy, 0b00111, 0b11111⟩
  | .fpIdle15 => ⟨.framePolicy, 0b01111, 0b11111⟩
  | .fpIdle23 => ⟨.framePolicy, 0b10111, 0b11111⟩
  | .lfsrShift => ⟨.lfsrSelect, 0b0, 0b1⟩
  | .lfsrShiftXor => ⟨.lfsrSelect, 0b1, 0b1⟩
  | .gatePass => ⟨.gateSelect, 0b00, 0b11⟩
  | .gateBlockB2 _ => ⟨.gateSelect, 0b01, 0b01⟩
  | .gateBlockB3 => ⟨.gateSelect, 0b10, 0b11⟩
  | .dutyFull => ⟨.dutySelect, 0b1, 0b1⟩
  | .dutyNibble => ⟨.dutySelect, 0b0, 0b1⟩

/-- One operation of every row of the opcode table, in the table's order. Which operand stands in a row that has one does
not matter: the row is the same for all. -/
def tableInstrs : List Instr :=
  .hold :: .tick :: .reset 0b10#2 ::
  .fpAdvance :: .fpAdvanceIf08 :: .fpAdvanceIf16 :: .fpAdvanceIf24 :: .fpEmit ::
  .fpIdleL1 1#5 :: .fpIdleL2 2#5 :: .fpIdleL3 3#5 :: .fpIdleL4 4#5 :: .fpIdleL5 5#5 :: .fpIdleL6 6#5 ::
  .fpIdle07 :: .fpIdle15 :: .fpIdle23 ::
  .lfsrShift :: .lfsrShiftXor :: .gatePass :: .gateBlockB2 0b01#2 :: .gateBlockB3 :: .dutyFull :: .dutyNibble :: []

/-- The opcode table. -/
def opcodeTable : List Row := tableInstrs.map Instr.row

/-- The rows of one field that a byte lies in. -/
def rowsHit (fmt : Format) (b : Byte) : List Row :=
  opcodeTable.filter (fun r => r.format == fmt && r.hits b)

/-! ### A bare word of the opcode table -/

/-- The field a bare table word is read in. The table's five fields share the small numbers, and a bare word does not
say which field it is of: 0 to 3 are read as the command at the ports, the block's only instruction input, and 4 to 31
fit the frame position alone. A word given with exactly 5 bits is a frame position (assumption 3, DESIGN CHOICE). -/
def tableFormat (nbits w : Nat) : Option Format :=
  if w < 4 ∧ nbits ≠ 5 then some .ifaceCmd
  else if w < 32 then some .framePolicy
  else none

/-- The operation the decoder reads from a bare word of the opcode table. -/
def decodeTableWord (nbits w : Nat) : Option Instr :=
  match tableFormat nbits w with
  | some fmt =>
    match decode fmt (BitVec.ofNat 8 w) with
    | .instr i => some i
    | .outsideField _ _ => none
  | none => none

end Sys2Proof
end

