-- ==== Sys2Proof/Config.lean ====
section
/-!
DEFINITION. What does not change while the block runs: the fixed constants of rule R9, the named parameters of rule
R10, and the values the spec leaves free.
-/

namespace Sys2Proof.Config

/-- `FRAME_LEN`: ticks per frame (rule R9). -/
def frameLen : Nat := 32

/-- `FEEDBACK`: the LFSR feedback constant (rules R9 and R101). -/
def feedback : SrWord := 0x7FFFF159#32

/-- `GATE_MASK`: the frame-position mask of the gate (rule R9). -/
def gateMask : FramePos := 0x7#5

/-- `EMIT_POS`: the frame position at which the duty value is written (rule R9). -/
def emitPos : FramePos := 31#5

/-- `DUTY_FULL`: the duty value when SR bit 4 is 1 (rule R9). -/
def dutyFull : Byte := 0xFF#8

/-- `DUTY_LOW_FILL`: the value ORed into the dim duty value (rule R9). -/
def dutyLowFill : Byte := 0x0F#8

/-- `FEEDBACK_POLARITY` (rule R10): the value of pre-shift bit 0 that makes the LFSR step apply `FEEDBACK`. `onOne` is
normative; `onZero` is the variant of rule R104. -/
inductive FeedbackPolarity where
  | onOne
  | onZero
  deriving DecidableEq, Repr

/-- The named parameters of rule R10. The spec has the model take each as an argument; here a state carries them and
no operation changes them (rule R28: no configurability at runtime; assumption 6). -/
structure Params where
  /-- `SR_SEED`, the value `SR` takes at `RESET` (decision D5). -/
  srSeed : SrWord
  /-- `FEEDBACK_POLARITY` (decision D6). -/
  feedbackPolarity : FeedbackPolarity
  /-- `DUTY_RESET`, the content of `DUTY` before the block's first write: 8 bits, or no value (decision D4). -/
  dutyReset : Option Byte
  /-- `TICK_LOSS`, whether the environment may drop a tick (decision D7). -/
  tickLoss : Bool
  /-- `TICK_HZ`, the tick frequency, a positive number; `none` where it is left OPEN, and no rule reads it (decision D11).
  That it is a rational is a DESIGN CHOICE (assumption 6). -/
  tickHz : Option Rat
  /-- `DUTY_ADDR`, where the platform has the duty register; `none` where it is left OPEN, and no rule reads it
  (decision D10). The spec says "platform address" and gives no width or form: a natural number without a bound is a
  DESIGN CHOICE (assumption 6). -/
  dutyAddr : Option Nat
  deriving DecidableEq, Repr

/-- Every normative default of rule R10. `DUTY_RESET` is OPEN in the spec: the `0x00` here is the model's DESIGN CHOICE
(assumption 5, unsafe), and no statement rests on it. `TICK_HZ` and `DUTY_ADDR` stay OPEN. -/
def Params.normative : Params where
  srSeed := 0x00000000#32
  feedbackPolarity := .onOne
  dutyReset := some 0x00#8
  tickLoss := false
  tickHz := none
  dutyAddr := none

/-- The one bound rule R10 puts on a parameter: `TICK_HZ` is a positive number. -/
def Params.wf (p : Params) : Bool :=
  match p.tickHz with
  | some hz => decide (0 < hz)
  | none => true

/-- FREE VALUE: what stands on `duty_wdata` in a step with `duty_we = 0`. Rule R60: its value in other steps is
unspecified and carries no meaning. Indexed by the operation (assumption 8). -/
opaque idleWdata : Nat → Byte

/-- FREE VALUE: whether the environment drops the tick fired at this operation index. Read only where `TICK_LOSS` is
true; rule R144: the environment may then drop any tick (assumption 7). -/
opaque tickDropped : Nat → Bool

end Sys2Proof.Config
end

