-- ==== Sys2Proof/Machine/Operands.lean ====
section
/-!
DEFINITION. The operand fields of rule R64 and the values of rule R65 that are assembled from fields. The block has no
addressing modes and no immediate operands.
-/

namespace Sys2Proof.Machine

open Sys2Proof.Config

/-- `Inc5(fc) = (fc + 1) & 0x1F` (rule R81): the frame position of a tick that starts at `fc`. -/
def inc5 (fc : FramePos) : FramePos := fc + 1#5

/-- `b0 = SR[0]`, the pre-shift bit (rule R64). -/
def b0 (s : SrWord) : BitVec 1 := s.extractLsb' 0 1

/-- `g = SR[3:2]`, the gate field (rule R64). -/
def gateField (s : SrWord) : BitVec 2 := s.extractLsb' 2 2

/-- `d = SR[4]`, the duty select (rule R64). -/
def dutySel (s : SrWord) : BitVec 1 := s.extractLsb' 4 1

/-- `n = SR[3:0]`, the low nibble of the low byte (rule R64). -/
def nibble (s : SrWord) : BitVec 4 := s.extractLsb' 0 4

/-- Byte `k` of `SR`, `SR[8k+7:8k]` (rule R23). -/
def srByte (s : SrWord) (k : Nat) : Byte := s.extractLsb' (8 * k) 8

/-- The dim duty value `(n << 4) | 0x0F`, 8 bits with no extension (rule R65). -/
def dimValue (n : BitVec 4) : Byte := (n.setWidth 8 <<< 4) ||| dutyLowFill

end Sys2Proof.Machine
end

