-- ==== Sys2Proof/Machine/State.lean ====
section
/-!
DEFINITION. The machine's state: the spec's three elements (rule R20), the parameters it runs under (rule R10), the
inputs its environment has still to deliver, and what the outside world observes of it (rules R48 and R60). There is no
memory, register file, program counter, flag or control register to hold (rules R25 to R29 and R40).
-/

namespace Sys2Proof.Machine

open Sys2Proof.Config

/-- What the environment delivers to the block, one item a step (rules R60, R143 and R34). -/
inductive Event where
  /-- One interface command, as it stands on the ports `{rst, tick}` (rule R60). -/
  | command (cmd : CmdWord)
  /-- The tick source fires (rule R143). It reaches the block as `TICK`, unless `TICK_LOSS` lets it be lost (rule R144). -/
  | timerOverflow
  /-- A power cycle: nothing persists across it (rules R34 and R162 step 1; assumption 10). -/
  | powerCycle
  deriving DecidableEq, Repr

/-- One observed duty write: which operation wrote, and what (rule R48). -/
structure DutyEvent where
  index : Nat
  value : Byte
  deriving DecidableEq, Repr

/-- The state. -/
structure State where
  /-- `FC`, the frame counter (rule R21); `none` is the spec's "holds no value" before the first `RESET` (rule R163). -/
  fc : Option FramePos
  /-- `SR`, the shift register (rule R22); `none` is the spec's "holds no value" before the first `RESET` (rule R163). -/
  sr : Option SrWord
  /-- `DUTY`, the platform's duty register (rule R24); `none` where `DUTY_RESET` is "no value" (rule R10). -/
  duty : Option Byte
  /-- The parameters of rule R10; no operation changes them. -/
  params : Params
  /-- What the environment has still to deliver, soonest first (rule R47: in the order the interface delivers). -/
  pending : List Event
  /-- The output port of the last operation (rule R60): `some v` is `duty_we = 1, duty_wdata = v`; `none` is
  `duty_we = 0`. -/
  dutyPort : Option Byte
  /-- How many operations have run: the index of the next one (rule R48), and the counter the free values are taken
  at. -/
  opIndex : Nat
  /-- The observation: every duty write so far, in operation order (rule R48). -/
  writes : List DutyEvent
  deriving DecidableEq, Repr

/-- Why the machine stops. -/
inductive Fault where
  /-- `TickBeforeReset` (rules R142 and R163): a `TICK`, or an action selected inside one, in a state where `FC` or `SR`
  holds no value. The model's only fault. Raised by `inTick` alone. SAFE: the model stops where the source's contract
  has already been broken. -/
  | tickBeforeReset
  deriving DecidableEq, Repr

/-- Why an operation has no meaning. -/
inductive Refusal where
  /-- The operation is not modelled. Raised by no arm: every operation has its meaning. SAFE: the model stops. -/
  | notModelled (mnemonic : String)
  deriving DecidableEq, Repr

/-- The machine right after `RESET` under the normative parameters (rules R32 and R160): `FC = 0`,
`SR = SR_SEED = 0x00000000`, no write on the port. `DUTY` holds `DUTY_RESET`, which the spec leaves OPEN: `0x00` is a
DESIGN CHOICE (assumption 5). Nothing is pending and nothing has been observed (assumptions 4 and 9). -/
def State.reset : State where
  fc := some 0#5
  sr := some 0x00000000#32
  duty := some 0x00#8
  params := Params.normative
  pending := []
  dutyPort := none
  opIndex := 0
  writes := []

end Sys2Proof.Machine
end

