-- ==== Sys2Proof/Machine/Ops.lean ====
section
/-!
DEFINITION. The named operations over the state. The block takes no exception (rule R140) and its event entry saves no
state, switches no mode and takes no vector (rule R146): the only thing shared by every tick is `inTick`, the entry, and
`commitFc`, the return of rule R85.
-/

namespace Sys2Proof.Machine

open Sys2Proof.Config

/-! ### Registers and the output port -/

/-- `SR <- v`. -/
def writeSr (v : SrWord) (s : State) : State := { s with sr := some v }

/-- `FC <- v`: the commit with which a tick returns (rule R85), and the counter's reset (rule R160). -/
def commitFc (v : FramePos) (s : State) : State := { s with fc := some v }

/-- `duty_we = 0` (rule R60): the operation writes no duty value. -/
def noWrite (s : State) : State := { s with dutyPort := none }

/-- `DutyWrite(v)` (rule R125): `duty_we = 1`, `duty_wdata = v`, `DUTY <- v`. A write of the value `DUTY` already holds is
a write all the same (rule R44, decision D16), so the observation records every one (rule R48). -/
def dutyWrite (v : Byte) (s : State) : State :=
  { s with duty := some v, dutyPort := some v, writes := s.writes ++ [⟨s.opIndex, v⟩] }

/-- `duty_we` as the last operation left it (rule R60). -/
def dutyWe (s : State) : Bool := s.dutyPort.isSome

/-- `duty_wdata` as the last operation left it (rule R60); a free value where `duty_we = 0` (assumption 8). -/
def dutyWdata (s : State) : Byte := s.dutyPort.getD (idleWdata s.opIndex)

/-! ### Entering a tick -/

/-- The entry of a `TICK` and of every action selected inside one: it reads `FC` and `SR`, and where either holds no
value it stops with `TickBeforeReset` (rules R142 and R163). Nothing else can fail (rule R140). -/
def inTick (s : State) (body : FramePos → SrWord → State) : Host.Outcome State Fault Refusal :=
  match s.fc, s.sr with
  | some fc, some sr => .next (body fc sr)
  | _, _ => .fault .tickBeforeReset

/-! ### Power -/

/-- The state at power-on (rule R162 step 1): `FC` and `SR` hold no value, `DUTY` holds `DUTY_RESET` (rule R32). -/
def State.powerOn (p : Params) : State where
  fc := none
  sr := none
  duty := p.dutyReset
  params := p
  pending := []
  dutyPort := none
  opIndex := 0
  writes := []

/-- A power cycle keeps nothing of the block or its duty register (rules R34 and R154); the environment's own stream
and the observation are not the block's, and stay (assumption 10). -/
def powerCycle (s : State) : State :=
  { s with fc := none, sr := none, duty := s.params.dutyReset, dutyPort := none }

/-! ### What the environment delivers, and the count of operations -/

/-- What a step works on: a command at the ports, or a power cycle, with the state the item was taken from. -/
inductive Taken where
  | command (cmd : CmdWord) (s : State)
  | power (s : State)
  deriving DecidableEq, Repr

/-- The command a fired tick becomes (rule R144): `TICK`, or, where `TICK_LOSS` is true and the environment drops it,
a step with no event (assumption 7). -/
def firedCommand (s : State) : CmdWord :=
  if s.params.tickLoss && tickDropped s.opIndex then 0b00#2 else 0b01#2

/-- Take the next delivered item. With nothing to deliver, the ports carry neither reset nor tick: `0b00`
(rules R60 and R86; assumption 4). -/
def takeEvent (s : State) : Taken :=
  match s.pending with
  | [] => .command 0b00#2 s
  | .command cmd :: rest => .command cmd { s with pending := rest }
  | .timerOverflow :: rest => .command (firedCommand s) { s with pending := rest }
  | .powerCycle :: rest => .power { s with pending := rest }

/-- One more operation has run (rule R48). -/
def countOp (s : State) : State := { s with opIndex := s.opIndex + 1 }

/-- What a step makes of an operation's outcome: a completed operation is counted. -/
def finishOp (o : Host.Outcome State Fault Refusal) : Host.Outcome State Fault Refusal :=
  match o with
  | .next s => .next (countOp s)
  | .fault f => .fault f
  | .refused r => .refused r

/-- Place a bare word of the opcode table so that the very next step runs it (assumptions 3 and 4): a command stands
first among what is delivered; a frame-policy row is run by a `TICK`, so the counter is set one before the row's
position and the `TICK` is delivered. A word of no field leaves the state as it is. -/
def placeTableWord (s : State) (nbits w : Nat) : State :=
  match tableFormat nbits w with
  | some .ifaceCmd => { s with pending := .command (BitVec.ofNat 2 w) :: s.pending }
  | some .framePolicy => { s with fc := some (BitVec.ofNat 5 w - 1#5), pending := .command 0b01#2 :: s.pending }
  | _ => s

end Sys2Proof.Machine
end

