-- ==== Sys2Proof/Machine/Duty.lean ====
section
/-!
DEFINITION. The duty mapper (rule R120) and the two duty rows. A duty value is not kept: deriving it and writing it are
one (rule R125), so a row's meaning is the write of the value it selects (assumption 1).
-/

namespace Sys2Proof.Machine

open Sys2Proof.Config

/-- `DutyMap(s)` (rules R120 to R122). -/
def dutyMap (s : SrWord) : Byte :=
  if dutySel s = 1#1 then Config.dutyFull else dimValue (nibble s)

/-- `DUTY_FULL` (rule R121): the duty value is `0xFF`. -/
def execDutyFull (s : State) : Host.Outcome State Fault Refusal :=
  inTick s fun _ _ => dutyWrite Config.dutyFull s

/-- `DUTY_NIBBLE` (rule R122): the duty value is `(SR[3:0] << 4) | 0x0F`. -/
def execDutyNibble (s : State) : Host.Outcome State Fault Refusal :=
  inTick s fun _ sr => dutyWrite (dimValue (nibble sr)) s

end Sys2Proof.Machine
end

