-- ==== Sys2Proof/Machine/Flags.lean ====
section
/-!
DEFINITION. The block has no architected flags (rule R27). What would be flags are two conditions local to one `TICK`
and kept nowhere: the gate decision `adv` and the feedback condition `apply`.
-/

namespace Sys2Proof.Machine

open Sys2Proof.Config

/-- `Gate(fc1, s)` (rule R82): whether the tick at frame position `fc1` advances, from the `SR` it starts with. The three
cases are tested in the rule's order. -/
def gate (fc1 : FramePos) (s : SrWord) : Bool :=
  if fc1 = 0#5 then true
  else if fc1 &&& gateMask ≠ 0#5 then false
  else gateField s == 0b00#2

/-- `apply` (rules R100 and R104): whether the LFSR step XORs the feedback constant in, from the bit before the shift. -/
def applyFeedback (pol : FeedbackPolarity) (s : SrWord) : Bool :=
  match pol with
  | .onOne => b0 s == 1#1
  | .onZero => b0 s == 0#1

end Sys2Proof.Machine
end

