-- ==== Sys2Proof/Machine/Lfsr.lean ====
section
/-!
DEFINITION. The LFSR step (rule R100), its byte-serial form (rule R102), its inverse (rule R107), and the two LFSR rows.
-/

namespace Sys2Proof.Machine

open Sys2Proof.Config

/-- `LfsrStep(s)` (rule R100; the other polarity is rule R104): shift right by one, then XOR the feedback constant in if
the bit before the shift says so. -/
def lfsrStep (pol : FeedbackPolarity) (s : SrWord) : SrWord :=
  if applyFeedback pol s then (s >>> 1) ^^^ feedback else s >>> 1

/-- One byte of the chain of rule R102: the carry enters at bit 7 and bit 0 leaves as the next carry. -/
def shiftByte (carry : BitVec 1) (byte : Byte) : Byte × BitVec 1 :=
  (carry ++ byte.extractLsb' 1 7, byte.extractLsb' 0 1)

/-- The byte-serial shift of rule R102, most significant byte first, the carry starting at 0: the shifted word, and the
carry out of byte 0. -/
def byteSerialShift (s : SrWord) : SrWord × BitVec 1 :=
  let r3 := shiftByte 0#1 (srByte s 3)
  let r2 := shiftByte r3.2 (srByte s 2)
  let r1 := shiftByte r2.2 (srByte s 1)
  let r0 := shiftByte r1.2 (srByte s 0)
  (r3.1 ++ r2.1 ++ r1.1 ++ r0.1, r0.2)

/-- `LfsrStepInv(t)` (rule R107): the inverse of the normative step, for `t` with bit 31 clear. -/
def lfsrStepInv (t : SrWord) : SrWord :=
  let s0 : BitVec 1 := t.extractLsb' 30 1
  ((t ^^^ (if s0 = 1#1 then feedback else 0#32)) <<< 1) ||| s0.setWidth 32

/-- `LFSR_SHIFT` (rule R100): `SR <- SR >> 1`. -/
def execLfsrShift (s : State) : Host.Outcome State Fault Refusal :=
  inTick s fun _ sr => noWrite (writeSr (sr >>> 1) s)

/-- `LFSR_SHIFT_XOR` (rule R100): `SR <- (SR >> 1) ^ FEEDBACK`. -/
def execLfsrShiftXor (s : State) : Host.Outcome State Fault Refusal :=
  inTick s fun _ sr => noWrite (writeSr ((sr >>> 1) ^^^ feedback) s)

end Sys2Proof.Machine
end

