-- ==== Sys2Proof/Machine/Command.lean ====
section
/-!
DEFINITION. The three interface commands: `HOLD`, `TICK` and `RESET`. Each is one atomic transition (rule R16).
-/

namespace Sys2Proof.Machine

open Sys2Proof.Config

/-- `HOLD` (rule R86): nothing changes and `duty_we = 0`; permitted before the first `RESET` too (rule R163). -/
def execHold (s : State) : Host.Outcome State Fault Refusal := .next (noWrite s)

/-- Step 4 of a tick (rule R84): at frame position 31 write the duty value derived from `s1`; at any other, write none. -/
def emit (fc1 : FramePos) (s1 : SrWord) (s : State) : State :=
  if fc1 = emitPos then dutyWrite (dutyMap s1) s else noWrite s

/-- `TICK` (rule R80), its five steps in the rule's order: increment, gate on the `SR` before any advance, advance, emit
from the `SR` after it, commit. -/
def execTick (s : State) : Host.Outcome State Fault Refusal :=
  inTick s fun fc sr =>
    let fc1 := inc5 fc
    let adv := gate fc1 sr
    let s1 := if adv then lfsrStep s.params.feedbackPolarity sr else sr
    commitFc fc1 (writeSr s1 (emit fc1 s1 s))

/-- `RESET` (rule R160): `FC <- 0`, `SR <- SR_SEED`, from any state, one with no values among them; `DUTY` is not written
and `duty_we = 0`. With `cmd = 0b11` the tick is discarded (rule R66). -/
def execReset (s : State) : Host.Outcome State Fault Refusal :=
  .next (noWrite (commitFc 0#5 (writeSr s.params.srSeed s)))

end Sys2Proof.Machine
end

