-- ==== Sys2Proof/Machine/GateSelect.lean ====
section
/-!
DEFINITION. The three gate rows (rule R82), which select by `SR[3:2]` at frame positions 8, 16 and 24.
-/

namespace Sys2Proof.Machine

/-- The tick advances (rule R83): `SR <- LfsrStep(SR)`, no duty write. -/
def advance (s : State) : Host.Outcome State Fault Refusal :=
  inTick s fun _ sr => noWrite (writeSr (lfsrStep s.params.feedbackPolarity sr) s)

/-- The tick leaves `SR` as it is and writes no duty value. -/
def stay (s : State) : Host.Outcome State Fault Refusal :=
  inTick s fun _ _ => noWrite s

/-- `GATE_PASS` (rule R82): advance. -/
def execGatePass (s : State) : Host.Outcome State Fault Refusal := advance s

/-- `GATE_BLOCK_B2` (rule R82): bit 2 set, no advance. -/
def execGateBlockB2 (s : State) : Host.Outcome State Fault Refusal := stay s

/-- `GATE_BLOCK_B3` (rule R82): bit 3 set, no advance. -/
def execGateBlockB3 (s : State) : Host.Outcome State Fault Refusal := stay s

end Sys2Proof.Machine
end

