-- ==== Sys2Proof/Machine/FramePolicy.lean ====
section
/-!
DEFINITION. The frame-policy rows (rule R63): what a tick does at the frame position it lands on, the counter apart.
-/

namespace Sys2Proof.Machine

/-- Advance if and only if `SR[3:2] = 0b00` (rule R82), no duty write. -/
def advanceIf (s : State) : Host.Outcome State Fault Refusal :=
  inTick s fun _ sr =>
    if gateField sr = 0b00#2 then noWrite (writeSr (lfsrStep s.params.feedbackPolarity sr) s) else noWrite s

/-- `FP_ADVANCE` (rule R82, position 0): always advance, no duty write. -/
def execFpAdvance (s : State) : Host.Outcome State Fault Refusal := advance s

/-- `FP_ADVANCE_IF_08` (rule R82). -/
def execFpAdvanceIf08 (s : State) : Host.Outcome State Fault Refusal := advanceIf s

/-- `FP_ADVANCE_IF_16` (rule R82). -/
def execFpAdvanceIf16 (s : State) : Host.Outcome State Fault Refusal := advanceIf s

/-- `FP_ADVANCE_IF_24` (rule R82). -/
def execFpAdvanceIf24 (s : State) : Host.Outcome State Fault Refusal := advanceIf s

/-- `FP_EMIT` (rule R84, position 31): never advance, `DutyWrite(DutyMap(SR))`. -/
def execFpEmit (s : State) : Host.Outcome State Fault Refusal :=
  inTick s fun _ sr => dutyWrite (dutyMap sr) s

/-- `FP_IDLE_L1` (rule R82): never advance, no duty write. -/
def execFpIdleL1 (s : State) : Host.Outcome State Fault Refusal := stay s

/-- `FP_IDLE_L2` (rule R82): never advance, no duty write. -/
def execFpIdleL2 (s : State) : Host.Outcome State Fault Refusal := stay s

/-- `FP_IDLE_L3` (rule R82): never advance, no duty write. -/
def execFpIdleL3 (s : State) : Host.Outcome State Fault Refusal := stay s

/-- `FP_IDLE_L4` (rule R82): never advance, no duty write. -/
def execFpIdleL4 (s : State) : Host.Outcome State Fault Refusal := stay s

/-- `FP_IDLE_L5` (rule R82): never advance, no duty write. -/
def execFpIdleL5 (s : State) : Host.Outcome State Fault Refusal := stay s

/-- `FP_IDLE_L6` (rule R82): never advance, no duty write. -/
def execFpIdleL6 (s : State) : Host.Outcome State Fault Refusal := stay s

/-- `FP_IDLE_07` (rule R82): never advance, no duty write. -/
def execFpIdle07 (s : State) : Host.Outcome State Fault Refusal := stay s

/-- `FP_IDLE_15` (rule R82): never advance, no duty write. -/
def execFpIdle15 (s : State) : Host.Outcome State Fault Refusal := stay s

/-- `FP_IDLE_23` (rule R82): never advance, no duty write. -/
def execFpIdle23 (s : State) : Host.Outcome State Fault Refusal := stay s

end Sys2Proof.Machine
end

