-- ==== Sys2Proof/Machine/Dispatch.lean ====
section
/-! DEFINITION. One arm per operation of the opcode table, in the table's order. -/

namespace Sys2Proof.Machine

open Sys2Proof

/-- What each operation does to the state. -/
def exec (i : Instr) (s : State) : Host.Outcome State Fault Refusal :=
  match i with
  -- the interface commands
  | .hold => Sys2Proof.Machine.execHold s
  | .tick => Sys2Proof.Machine.execTick s
  | .reset _ => Sys2Proof.Machine.execReset s
  -- the frame-policy rows
  | .fpAdvance => Sys2Proof.Machine.execFpAdvance s
  | .fpAdvanceIf08 => Sys2Proof.Machine.execFpAdvanceIf08 s
  | .fpAdvanceIf16 => Sys2Proof.Machine.execFpAdvanceIf16 s
  | .fpAdvanceIf24 => Sys2Proof.Machine.execFpAdvanceIf24 s
  | .fpEmit => Sys2Proof.Machine.execFpEmit s
  | .fpIdleL1 _ => Sys2Proof.Machine.execFpIdleL1 s
  | .fpIdleL2 _ => Sys2Proof.Machine.execFpIdleL2 s
  | .fpIdleL3 _ => Sys2Proof.Machine.execFpIdleL3 s
  | .fpIdleL4 _ => Sys2Proof.Machine.execFpIdleL4 s
  | .fpIdleL5 _ => Sys2Proof.Machine.execFpIdleL5 s
  | .fpIdleL6 _ => Sys2Proof.Machine.execFpIdleL6 s
  | .fpIdle07 => Sys2Proof.Machine.execFpIdle07 s
  | .fpIdle15 => Sys2Proof.Machine.execFpIdle15 s
  | .fpIdle23 => Sys2Proof.Machine.execFpIdle23 s
  -- the LFSR rows
  | .lfsrShift => Sys2Proof.Machine.execLfsrShift s
  | .lfsrShiftXor => Sys2Proof.Machine.execLfsrShiftXor s
  -- the gate rows
  | .gatePass => Sys2Proof.Machine.execGatePass s
  | .gateBlockB2 _ => Sys2Proof.Machine.execGateBlockB2 s
  | .gateBlockB3 => Sys2Proof.Machine.execGateBlockB3 s
  -- the duty rows
  | .dutyFull => Sys2Proof.Machine.execDutyFull s
  | .dutyNibble => Sys2Proof.Machine.execDutyNibble s

end Sys2Proof.Machine
end

