-- ==== Sys2Proof/Machine/Step.lean ====
section
/-!
DEFINITION. The step: take what the environment delivers next and run it. A command at the ports is decoded and run as
one atomic transition (rules R16 and R60).
-/

namespace Sys2Proof.Machine

/-- One step. -/
def step (s : State) : Host.Outcome State Fault Refusal :=
  match takeEvent s with
  | .command cmd t => finishOp (exec (decodeCommand cmd) t)
  | .power t => .next (powerCycle t)

/-- `s` with a bare word of the opcode table placed where the next step takes its operation from (assumption 4). -/
def State.withFetchWord (s : State) (nbits w : Nat) : State := placeTableWord s nbits w

end Sys2Proof.Machine
end

