-- ==== Sys2Proof/Machine/Stream.lean ====
section
/-!
DEFINITION. The command-stream syntax of rule R68: its lines, the command words they stand for, the state a program is
launched in, and the reading of its text. A notation for tests, not hardware (decision D13).
-/

namespace Sys2Proof.Machine

open Sys2Proof.Config

/-- What a `PARAM <name>=<value>` directive sets (rules R10 and R68). -/
inductive ParamSetting where
  | srSeed (v : SrWord)
  | feedbackPolarity (v : FeedbackPolarity)
  | dutyReset (v : Option Byte)
  | tickHz (v : Rat)
  | dutyAddr (v : Nat)
  | tickLoss (v : Bool)
  deriving DecidableEq, Repr

/-- One line of a command stream (rule R68). -/
inductive Line where
  | reset
  | tick
  | hold
  /-- `RESET+TICK` (rule R66). -/
  | resetTick
  | ticks (n : Nat)
  | holds (n : Nat)
  | frame
  /-- `START FC=… SR=…`: the launch state in place of a `RESET`. -/
  | start (fc : FramePos) (sr : SrWord)
  | param (p : ParamSetting)
  deriving DecidableEq, Repr

/-- The `cmd` words a line stands for (the table of rule R68). -/
def Line.words : Line → List CmdWord
  | .reset => [0b10#2]
  | .tick => [0b01#2]
  | .hold => [0b00#2]
  | .resetTick => [0b11#2]
  | .ticks n => List.replicate n 0b01#2
  | .holds n => List.replicate n 0b00#2
  | .frame => List.replicate frameLen 0b01#2
  | .start _ _ => []
  | .param _ => []

/-- The encoding of a program: its list of `cmd` words in order (rule R68). -/
def programWords (prog : List Line) : List CmdWord := prog.flatMap Line.words

/-- A setting applied to the parameters. -/
def ParamSetting.apply (x : ParamSetting) (p : Params) : Params :=
  match x with
  | .srSeed v => { p with srSeed := v }
  | .feedbackPolarity v => { p with feedbackPolarity := v }
  | .dutyReset v => { p with dutyReset := v }
  | .tickHz v => { p with tickHz := some v }
  | .dutyAddr v => { p with dutyAddr := some v }
  | .tickLoss v => { p with tickLoss := v }

/-- The parameters a program sets, over the normative ones, wherever its directives stand. Of two settings of one parameter
the last wins: rule R68 is silent, and this is a DESIGN CHOICE (assumption 12). -/
def programParams (prog : List Line) : Params :=
  prog.foldl (fun p l => match l with | .param x => x.apply p | _ => p) Params.normative

/-- The state a program is launched in: power-on under its parameters, or the state its `START` gives, with its commands
standing at the ports in order (rules R68 and R163). Of two `START` lines the last wins, and one may stand after commands:
rule R68 is silent, and both are a DESIGN CHOICE (assumption 12). -/
def launch (prog : List Line) : State :=
  let s := prog.foldl (fun s l => match l with | .start fc sr => commitFc fc (writeSr sr s) | _ => s)
    (State.powerOn (programParams prog))
  { s with pending := (programWords prog).map Event.command }

/-! ### Reading the text (assumption 12: how a value is spelled is the model's choice where rule R68 does not say) -/

/-- The digits, each at the place of its value; a base has as many of the first as it says. -/
def digits : List Char := "0123456789ABCDEF".toList

/-- Read a numeral of a base, most significant digit first. A hexadecimal letter may be of either case. -/
def readNumeral (base : Nat) (cs : List Char) : Option Nat :=
  (cs.mapM fun c => (digits.take base).idxOf? c.toUpper).map (List.foldl (base * · + ·) 0)

/-- Read a number: `0x` introduces hexadecimal and `0b` binary (rule R12), anything else is decimal. -/
def readNumber : List Char → Option Nat
  | '0' :: 'x' :: c :: cs => readNumeral 16 (c :: cs)
  | '0' :: 'b' :: c :: cs => readNumeral 2 (c :: cs)
  | c :: cs => readNumeral 10 (c :: cs)
  | [] => none

/-- Read a number below a bound. -/
def readBelow (bound : Nat) (cs : List Char) : Option Nat :=
  match readNumber cs with
  | some n => if n < bound then some n else none
  | none => none

/-- What stands after `<name>=` in a token. -/
def valueOf (name : String) (token : List Char) : Option (List Char) :=
  let lead := name.toList ++ ['=']
  if lead.isPrefixOf token then some (token.drop lead.length) else none

/-- The tokens of a line, its comment left out: `;` starts a comment. -/
def tokensOf (line : List Char) : List (List Char) :=
  ((line.takeWhile (· != ';')).splitOn ' ').filter (fun t => !t.isEmpty)

/-- The value after `<name>=`, read by a reader of its own. -/
def readSetting (name : String) (read : List Char → Option ParamSetting) (token : List Char) : Option ParamSetting :=
  (valueOf name token).bind read

/-- `ON_ONE` or `ON_ZERO` (rule R10). -/
def readPolarity (v : List Char) : Option ParamSetting :=
  if v == "ON_ONE".toList then some (.feedbackPolarity .onOne)
  else if v == "ON_ZERO".toList then some (.feedbackPolarity .onZero)
  else none

/-- An 8-bit number, or `none` for "no value" (rule R10). -/
def readDutyReset (v : List Char) : Option ParamSetting :=
  if v == "none".toList then some (.dutyReset none)
  else (readBelow (2 ^ 8) v).map fun n => .dutyReset (some (BitVec.ofNat 8 n))

/-- A positive number (rule R10); only whole numbers are read. -/
def readTickHz (v : List Char) : Option ParamSetting :=
  match readNumber v with
  | some n => if 0 < n then some (.tickHz (n : Rat)) else none
  | none => none

/-- `true` or `false` (rule R10). -/
def readTickLoss (v : List Char) : Option ParamSetting :=
  if v == "true".toList then some (.tickLoss true)
  else if v == "false".toList then some (.tickLoss false)
  else none

/-- Read the `<name>=<value>` of a `PARAM` directive: a parameter of rule R10. -/
def readParam (token : List Char) : Option ParamSetting :=
  readSetting "SR_SEED" (fun v => (readBelow (2 ^ 32) v).map fun n => .srSeed (BitVec.ofNat 32 n)) token <|>
  readSetting "FEEDBACK_POLARITY" readPolarity token <|>
  readSetting "DUTY_RESET" readDutyReset token <|>
  readSetting "TICK_HZ" readTickHz token <|>
  readSetting "DUTY_ADDR" (fun v => (readNumber v).map .dutyAddr) token <|>
  readSetting "TICK_LOSS" readTickLoss token

/-- Read the tokens of one line: `some []` for a blank or comment line, `none` for one that rule R68 has no spelling
for. -/
def readLine (line : List Char) : Option (List Line) :=
  match tokensOf line with
  | [] => some []
  | [w] =>
    if w == "RESET".toList then some [.reset]
    else if w == "TICK".toList then some [.tick]
    else if w == "HOLD".toList then some [.hold]
    else if w == "RESET+TICK".toList then some [.resetTick]
    else if w == "FRAME".toList then some [.frame]
    else none
  | [w, a] =>
    if w == "TICKS".toList then (readNumber a).map fun n => [.ticks n]
    else if w == "HOLDS".toList then (readNumber a).map fun n => [.holds n]
    else if w == "PARAM".toList then (readParam a).map fun p => [.param p]
    else none
  | [w, a, b] =>
    if w == "START".toList then
      match (valueOf "FC" a).bind (readBelow 32), (valueOf "SR" b).bind (readBelow (2 ^ 32)) with
      | some fc, some sr => some [.start (BitVec.ofNat 5 fc) (BitVec.ofNat 32 sr)]
      | _, _ => none
    else none
  | _ => none

/-- Read a whole text, one command per line. -/
def readProgram (text : String) : Option (List Line) :=
  (text.toList.splitOn '\n').foldr
    (fun line rest => match readLine line, rest with | some l, some ls => some (l ++ ls) | _, _ => none) (some [])

end Sys2Proof.Machine
end

