-- ==== Sys2Proof/Safety.lean ====
section
/-!
DEFINITION. The terms claims are made in: when the registers hold values, which streams keep the source's startup
contract, runs of ticks, and the invariants.
-/

namespace Sys2Proof.Machine

open Sys2Proof.Config

/-- `FC` and `SR` hold values: the state is one after some `RESET` (rule R140). -/
def HoldsValues (s : State) : Prop := s.fc.isSome ∧ s.sr.isSome

/-- The startup contract over a stream (rules R150 and R162): no tick is delivered or fired while the registers hold no
value. `held` says whether they hold values at the start. -/
def bootOk : Bool → List Event → Bool
  | _, [] => true
  | held, .command cmd :: rest =>
    if cmd = 0b00#2 then bootOk held rest
    else if cmd = 0b01#2 then held && bootOk held rest
    else bootOk true rest
  | held, .timerOverflow :: rest => held && bootOk held rest
  | _, .powerCycle :: rest => bootOk false rest

/-- A state whose pending stream keeps the startup contract. -/
def Booted (s : State) : Prop := bootOk (s.fc.isSome && s.sr.isSome) s.pending = true

/-- `n` ticks delivered before whatever else is pending. -/
def withTicks (n : Nat) (s : State) : State :=
  { s with pending := List.replicate n (.command 0b01#2) ++ s.pending }

/-- The run of `n` ticks from `s`. -/
def runTicks (n : Nat) (s : State) : Host.Outcome State Fault Refusal := Sys2Proof.core.run n (withTicks n s)

/-- The observation is well kept (rule R48): the writes stand in operation order with indexes of operations that have
run; every value written has low nibble `0xF` (rule R123); and what the port shows is what `DUTY` holds and the last
write observed, by the operation just run (rule R62). -/
def ObservationWf (s : State) : Prop :=
  (∀ e ∈ s.writes, e.index < s.opIndex ∧ e.value.extractLsb' 0 4 = 0xF#4) ∧
  s.writes.Pairwise (fun a b => a.index < b.index) ∧
  ∀ v, s.dutyPort = some v → s.duty = some v ∧ ∃ e, s.writes.getLast? = some e ∧ e.value = v ∧ e.index + 1 = s.opIndex

/-- The normative device does not flicker (rule R109): the seed is 0 under the normative polarity, `SR` is 0 wherever it
holds a value, and every value written is `0x0F`. -/
def DoesNotFlicker (s : State) : Prop :=
  s.params.srSeed = 0#32 ∧ s.params.feedbackPolarity = .onOne ∧ (∀ x, s.sr = some x → x = 0#32) ∧
  ∀ e ∈ s.writes, e.value = 0x0F#8

/-- Bit 31 of the seed and of `SR` is clear (rule R106). -/
def TopBitClear (s : State) : Prop :=
  s.params.srSeed.getLsbD 31 = false ∧ ∀ x, s.sr = some x → x.getLsbD 31 = false

/-- A set bit 31 has met no open gate since the counter was last below 8: what rules out the unreachable states of rule
R163. -/
def TopBitOnlyBehindClosedGate (s : State) : Prop :=
  ∀ fc x, s.fc = some fc → s.sr = some x → x.getLsbD 31 = true → fc.toNat ≤ 7 ∨ x &&& 0x0000000C#32 ≠ 0#32

end Sys2Proof.Machine
end

