-- ==== Sys2Proof/Certificates/Slice0/Obligations.lean ====
section
/-!
DEFINITION. The statements for the provers. Each docstring names the rule it formalises, or says that it rests on a
choice of the model's and names the log entry.
-/

open Sys2Proof Sys2Proof.Machine Sys2Proof.Config

/-! ### Encoding -/

/-- Words written out from the tables of rules R60, R63 and R64 decode to the operations they stand for. -/
def Obligations.SpecWordsDecode : Prop :=
  decode .ifaceCmd 0b00 = .instr .hold ∧ decode .ifaceCmd 0b01 = .instr .tick ∧
  decode .ifaceCmd 0b10 = .instr (.reset 0b10) ∧ decode .ifaceCmd 0b11 = .instr (.reset 0b11) ∧
  decode .framePolicy 0b00000 = .instr .fpAdvance ∧ decode .framePolicy 0b11000 = .instr .fpAdvanceIf24 ∧
  decode .framePolicy 0b11111 = .instr .fpEmit ∧ decode .framePolicy 0b11110 = .instr (.fpIdleL6 0b11110) ∧
  decode .framePolicy 0b01111 = .instr .fpIdle15 ∧ decode .lfsrSelect 0b1 = .instr .lfsrShiftXor ∧
  decode .gateSelect 0b11 = .instr (.gateBlockB2 0b11) ∧ decode .gateSelect 0b10 = .instr .gateBlockB3 ∧
  decode .dutySelect 0b1 = .instr .dutyFull ∧ decode .dutySelect 0b0 = .instr .dutyNibble

/-- Decoding the encoding of a well-formed operation, in its own field, gives the operation back with its operand. -/
def Obligations.DecodeOfEncodeIsTheOperation : Prop :=
  ∀ i : Instr, i.wellFormed = true → decode i.format (encode i) = .instr i

/-- The other direction: what a byte decodes to is well formed, is of the byte's field, and encodes to that byte. -/
def Obligations.EncodeOfDecodeIsTheByte : Prop :=
  ∀ (fmt : Format) (b : Byte) (i : Instr), decode fmt b = .instr i →
    i.wellFormed = true ∧ i.format = fmt ∧ encode i = b

/-- The opcode table and the decoder agree on every byte: a byte the field can hold lies in exactly one row of the
table, the row of the operation it decodes to; any other byte is rejected by name. -/
def Obligations.DecoderAgreesWithTheOpcodeTable : Prop :=
  ∀ (fmt : Format) (b : Byte),
    (b.toNat < 2 ^ fmt.width → ∃ i, decode fmt b = .instr i ∧ rowsHit fmt b = [i.row]) ∧
    (2 ^ fmt.width ≤ b.toNat → decode fmt b = .outsideField fmt b)

/-- Rule R61: the decode of a command is total, each of the four values of `cmd` selects exactly one operation, and no
mode changes how a command decodes: whatever the state, the step at a delivered command is that of one operation. -/
def Obligations.EachCommandSelectsOneOperation : Prop :=
  ∀ cmd : CmdWord, ∃! i : Instr, i.format = .ifaceCmd ∧ decode .ifaceCmd (cmd.setWidth 8) = .instr i ∧
    ∀ (s : State) (rest : List Event), s.pending = .command cmd :: rest →
      step s = finishOp (exec i { s with pending := rest })

/-- Rule R66: no command word is illegal or reserved; `0b11` is `RESET` and its tick is discarded, so it does exactly
what `0b10` does; every frame position lies in a row of the frame-policy table; a value of `FC` above 31 does not
exist. -/
def Obligations.NoCommandIsReservedAndResetWinsOverTick : Prop :=
  (∀ cmd : CmdWord, ∃ i, decode .ifaceCmd (cmd.setWidth 8) = .instr i ∧ ∀ s r, exec i s ≠ .refused r) ∧
  (∀ s : State, exec (decodeCommand 0b11) s =
    .next { s with fc := some 0#5, sr := some s.params.srSeed, dutyPort := none }) ∧
  (∀ s : State, exec (decodeCommand 0b11) s = exec (decodeCommand 0b10) s) ∧
  (∀ pos : FramePos, rowsHit .framePolicy (pos.setWidth 8) ≠ []) ∧
  ∀ pos : FramePos, pos.toNat ≤ 31

/-- The table of rule R68: the command words each line of a command stream stands for. -/
def Obligations.StreamLinesStandForTheirWords : Prop :=
  Line.reset.words = [0b10#2] ∧ Line.tick.words = [0b01#2] ∧ Line.hold.words = [0b00#2] ∧
  Line.resetTick.words = [0b11#2] ∧ (∀ n, (Line.ticks n).words = List.replicate n 0b01#2) ∧
  (∀ n, (Line.holds n).words = List.replicate n 0b00#2) ∧ Line.frame.words = List.replicate 32 0b01#2 ∧
  (∀ fc sr, (Line.start fc sr).words = []) ∧ ∀ p, (Line.param p).words = []

/-! ### The step -/

/-- A step runs the delivered command's operation, and counts it. -/
def Obligations.StepRunsTheDeliveredCommand : Prop :=
  ∀ (s : State) (cmd : CmdWord) (rest : List Event), s.pending = .command cmd :: rest →
    step s = match exec (decodeCommand cmd) { s with pending := rest } with
      | .next t => .next { t with opIndex := t.opIndex + 1 }
      | .fault f => .fault f
      | .refused r => .refused r

/-- With nothing delivered a step is a `HOLD` (the model's choice, log entry 4). -/
def Obligations.StepWithNothingPendingHolds : Prop :=
  ∀ s : State, s.pending = [] → step s = .next { s with dutyPort := none, opIndex := s.opIndex + 1 }

/-- A fired tick (rule R144): without `TICK_LOSS` it is one `TICK`; with it, the environment may drop it, and the step is
then a `HOLD` (that it is a `HOLD` is the model's choice, log entry 7). -/
def Obligations.FiredTickIsATickUnlessLost : Prop :=
  ∀ (s : State) (rest : List Event), s.pending = .timerOverflow :: rest →
    (s.params.tickLoss = false → step s = finishOp (exec .tick { s with pending := rest })) ∧
    (s.params.tickLoss = true →
      step s = finishOp (exec .tick { s with pending := rest }) ∨
      step s = finishOp (exec .hold { s with pending := rest }))

/-- Rule R34: no operation destroys the registers' values; a power cycle loses both, and then a tick stops while a reset
gives them values again. -/
def Obligations.OnlyAPowerCycleLosesTheRegisters : Prop :=
  (∀ i s t, HoldsValues s → exec i s = .next t → HoldsValues t) ∧
  ∀ (s : State) (rest : List Event), s.pending = .powerCycle :: rest →
    ∃ t, step s = .next t ∧ t.fc = none ∧ t.sr = none ∧ t.pending = rest ∧
      exec .tick t = .fault .tickBeforeReset ∧ ∀ cmd, ∃ u, exec (.reset cmd) t = .next u ∧ HoldsValues u

/-- What the power cycle leaves (log entry 10): `DUTY` is back at `DUTY_RESET`, the port shows no write, and the
parameters, the count and the observation stay. -/
def Obligations.PowerCycleRestoresTheDutyResetValue : Prop :=
  ∀ (s : State) (rest : List Event), s.pending = .powerCycle :: rest →
    ∃ t, step s = .next t ∧ t.duty = s.params.dutyReset ∧ t.dutyPort = none ∧ t.params = s.params ∧
      t.opIndex = s.opIndex ∧ t.writes = s.writes

/-! ### The commands -/

/-- Rule R86: `HOLD`, in every state, one with no values among them, changes nothing and writes nothing; any number of
them changes neither register nor `DUTY`. -/
def Obligations.HoldChangesNothing : Prop :=
  decodeCommand 0b00 = .hold ∧
  (∀ s : State, exec .hold s = .next { s with dutyPort := none }) ∧
  ∀ (n : Nat) (s : State) (rest : List Event), s.pending = List.replicate n (.command 0b00) ++ rest →
    ∃ t, Sys2Proof.core.run n s = .next t ∧ t.fc = s.fc ∧ t.sr = s.sr ∧ t.duty = s.duty ∧ t.writes = s.writes ∧
      t.params = s.params ∧ t.pending = rest

/-- Rule R160: `RESET`, by either command word and from any state, gives `FC = 0` and `SR = SR_SEED`, normatively 0, and
leaves `DUTY` as it was. -/
def Obligations.ResetGivesTheResetState : Prop :=
  decodeCommand 0b10 = .reset 0b10 ∧ decodeCommand 0b11 = .reset 0b11 ∧
  Params.normative.srSeed = 0x00000000#32 ∧
  ∀ (cmd : CmdWord) (s : State),
    exec (.reset cmd) s = .next { s with fc := some 0#5, sr := some s.params.srSeed, dutyPort := none }

/-- Rule R161: a `RESET` delivered at any later step has the same effect, and `FC` restarts at 0. -/
def Obligations.LateResetStartsANewRun : Prop :=
  ∀ (s : State) (cmd : CmdWord) (rest : List Event), s.pending = .command cmd :: rest → cmd.getLsbD 1 = true →
    ∃ t, step s = .next t ∧ t.fc = some 0#5 ∧ t.sr = some s.params.srSeed ∧ t.duty = s.duty ∧ t.dutyPort = none ∧
      t.writes = s.writes ∧ t.params = s.params ∧ t.pending = rest

/-- Rule R80, the whole of a `TICK` spelled out in the constants of rule R9, under either polarity (rule R104). -/
def Obligations.TickIsTheFiveSteps : Prop :=
  ∀ (s : State) (fc : FramePos) (x : SrWord), s.fc = some fc → s.sr = some x →
    ∃ (adv apply : Bool) (x1 : SrWord) (v : Byte),
      (adv = true ↔ (fc.toNat = 31 ∨ ((fc.toNat = 7 ∨ fc.toNat = 15 ∨ fc.toNat = 23) ∧
        x.getLsbD 2 = false ∧ x.getLsbD 3 = false))) ∧
      (apply = match s.params.feedbackPolarity with | .onOne => x.getLsbD 0 | .onZero => !x.getLsbD 0) ∧
      (x1 = if adv then (if apply then (x >>> 1) ^^^ 0x7FFFF159#32 else x >>> 1) else x) ∧
      (v.toNat = if x1.getLsbD 4 then 255 else x1.toNat % 16 * 16 + 15) ∧
      exec .tick s = .next (if fc.toNat = 30 then
          { s with fc := some 31#5, sr := some x1, duty := some v, dutyPort := some v,
                   writes := s.writes ++ [⟨s.opIndex, v⟩] }
        else { s with fc := some (BitVec.ofNat 5 (fc.toNat + 1)), sr := some x1, dutyPort := none })

/-- Rule R81: `Inc5` counts modulo 32, and every `TICK` increments `FC`, whatever the gate does. -/
def Obligations.EveryTickIncrementsTheFrameCounter : Prop :=
  (∀ fc : FramePos, (inc5 fc).toNat = (fc.toNat + 1) % 32) ∧
  ∀ (s : State) (fc : FramePos) (x : SrWord), s.fc = some fc → s.sr = some x →
    ∃ t, exec .tick s = .next t ∧
      t.fc = some (BitVec.ofNat 5 (if fc.toNat = 31 then 0 else fc.toNat + 1))

/-- Rule R82: the gate is open at position 0, is closed where the low three bits of the position are not all zero, and
at 8, 16 and 24 is open exactly when bits 2 and 3 of the current `SR` are both zero; no other bit of `SR` is read. -/
def Obligations.GateFollowsTheFramePolicy : Prop :=
  ∀ (fc1 : FramePos) (x : SrWord),
    (fc1.toNat = 0 → gate fc1 x = true) ∧
    (fc1.toNat % 8 ≠ 0 → gate fc1 x = false) ∧
    ((fc1.toNat = 8 ∨ fc1.toNat = 16 ∨ fc1.toNat = 24) →
      (gate fc1 x = true ↔ x &&& 0x0000000C#32 = 0#32) ∧
      (gate fc1 x = true ↔ x.getLsbD 3 = false ∧ x.getLsbD 2 = false)) ∧
    ∀ y : SrWord, x.getLsbD 2 = y.getLsbD 2 → x.getLsbD 3 = y.getLsbD 3 → gate fc1 x = gate fc1 y

/-- Rule R83: a tick performs one LFSR step if the gate is open, none otherwise, so at most one. -/
def Obligations.TickAdvancesIffTheGateIsOpen : Prop :=
  ∀ (s : State) (fc : FramePos) (x : SrWord), s.fc = some fc → s.sr = some x →
    ∃ t, exec .tick s = .next t ∧
      (gate (inc5 fc) x = true → t.sr = some (lfsrStep s.params.feedbackPolarity x)) ∧
      (gate (inc5 fc) x = false → t.sr = some x)

/-- Rule R84: the tick that lands on position 31 writes the duty value of the shift register after its step 3, equal to
what `DUTY` holds or not; any other tick writes none. -/
def Obligations.TickWritesDutyOnlyAtPosition31 : Prop :=
  ∀ (s : State) (fc : FramePos) (x : SrWord), s.fc = some fc → s.sr = some x →
    ∃ t x1, exec .tick s = .next t ∧ t.sr = some x1 ∧
      (fc.toNat = 30 → t.duty = some (dutyMap x1) ∧ t.dutyPort = some (dutyMap x1) ∧
        t.writes = s.writes ++ [⟨s.opIndex, dutyMap x1⟩]) ∧
      (fc.toNat ≠ 30 → t.duty = s.duty ∧ t.dutyPort = none ∧ t.writes = s.writes)

/-- Rule R87: no tick both advances and writes, so the value written is that of the `SR` the tick started with. -/
def Obligations.DutyComesFromTheStartingShiftRegister : Prop :=
  (∀ (fc1 : FramePos) (x : SrWord), gate fc1 x = true → fc1.toNat ≠ 31) ∧
  ∀ (s : State) (x : SrWord), s.fc = some 30#5 → s.sr = some x →
    ∃ t, exec .tick s = .next t ∧ t.sr = some x ∧ t.duty = some (dutyMap x)

/-! ### The selections inside a tick -/

/-- A tick runs the frame-policy row its position selects, and then commits the counter: the ordered tests of rules R82
and R84 and the disjoint rows of rule R63 are the same function. What a row does by itself, and where it stops, is the
model's reading (log entry 1, DEDUCED). -/
def Obligations.TickRunsTheSelectedPolicyRow : Prop :=
  ∀ (s : State) (fc : FramePos), s.fc = some fc →
    exec .tick s = match exec (decodePolicy (inc5 fc)) s with
      | .next t => .next { t with fc := some (inc5 fc) }
      | .fault f => .fault f
      | .refused r => .refused r

/-- The rows select onward by the fields of rule R64: an advance runs the LFSR row that pre-shift bit 0 selects, a
conditional advance the gate row of `SR[3:2]`, the emit the duty row of `SR[4]`. That rows have effects of their own, and
that under the variant polarity of rule R104 the complement of the bit selects, is the model's reading (log entry 1,
DEDUCED). -/
def Obligations.RowsRunTheRowsTheySelect : Prop :=
  ∀ (s : State) (x : SrWord), s.sr = some x →
    (∀ i ∈ [Instr.fpAdvance, .gatePass],
      (s.params.feedbackPolarity = .onOne → exec i s = exec (decodeLfsr (x.extractLsb' 0 1)) s) ∧
      (s.params.feedbackPolarity = .onZero → exec i s = exec (decodeLfsr (~~~ (x.extractLsb' 0 1))) s)) ∧
    (∀ i ∈ [Instr.fpAdvanceIf08, .fpAdvanceIf16, .fpAdvanceIf24],
      exec i s = exec (decodeGate (x.extractLsb' 2 2)) s) ∧
    exec .fpEmit s = exec (decodeDuty (x.extractLsb' 4 1)) s

/-- The rows that always advance complete with one LFSR step and no duty write (a row's own effect: log entry 1, DEDUCED). -/
def Obligations.AdvancingRowsStepTheLfsr : Prop :=
  ∀ (s : State) (x : SrWord), HoldsValues s → s.sr = some x →
    ∀ i ∈ [Instr.fpAdvance, .gatePass],
      exec i s = .next { s with sr := some (lfsrStep s.params.feedbackPolarity x), dutyPort := none }

/-- The conditional rows complete with one LFSR step exactly when `SR[3:2] = 0b00`, and no duty write (a row's own
effect: log entry 1, DEDUCED). -/
def Obligations.ConditionalRowsStepTheLfsrOnZeroGateField : Prop :=
  ∀ (s : State) (x : SrWord), HoldsValues s → s.sr = some x →
    ∀ i ∈ [Instr.fpAdvanceIf08, .fpAdvanceIf16, .fpAdvanceIf24],
      exec i s = .next { s with
        sr := some (if x &&& 0x0000000C#32 = 0#32 then lfsrStep s.params.feedbackPolarity x else x)
        dutyPort := none }

/-- The idle and the blocking rows complete with nothing changed and no duty write (a row's own effect: log entry 1,
DEDUCED). -/
def Obligations.IdleAndBlockingRowsChangeNothing : Prop :=
  ∀ (s : State), HoldsValues s → ∀ (pos : FramePos) (g : BitVec 2),
    ∀ i ∈ [Instr.fpIdleL1 pos, .fpIdleL2 pos, .fpIdleL3 pos, .fpIdleL4 pos, .fpIdleL5 pos, .fpIdleL6 pos, .fpIdle07,
        .fpIdle15, .fpIdle23, .gateBlockB2 g, .gateBlockB3],
      exec i s = .next { s with dutyPort := none }

/-- The LFSR rows complete with the shifted word, the feedback constant XORed in by the second (a row's own
effect: log entry 1, DEDUCED). -/
def Obligations.LfsrRowsShift : Prop :=
  ∀ (s : State) (x : SrWord), HoldsValues s → s.sr = some x →
    exec .lfsrShift s = .next { s with sr := some (x >>> 1), dutyPort := none } ∧
    exec .lfsrShiftXor s = .next { s with sr := some ((x >>> 1) ^^^ 0x7FFFF159#32), dutyPort := none }

/-- The emitting rows complete with a duty write: of `DutyMap(SR)`, of `0xFF`, of the dim value (a row's own effect:
log entry 1, DEDUCED). -/
def Obligations.EmittingRowsWriteDuty : Prop :=
  ∀ (s : State) (x : SrWord), HoldsValues s → s.sr = some x →
    exec .fpEmit s = .next (dutyWrite (dutyMap x) s) ∧
    exec .dutyFull s = .next (dutyWrite 0xFF#8 s) ∧
    exec .dutyNibble s = .next (dutyWrite (x.extractLsb' 0 4 ++ 0b1111#4) s)

/-! ### Where operations stop -/

/-- Rule R142: of the commands, a `TICK` faults exactly in the states where `FC` or `SR` holds no value, and no other
command faults; `TickBeforeReset` is the only fault there is. -/
def Obligations.OnlyATickBeforeResetFaults : Prop :=
  (∀ (i : Instr) (s : State), i.format = .ifaceCmd →
    (exec i s = .fault .tickBeforeReset ↔ i = .tick ∧ (s.fc = none ∨ s.sr = none))) ∧
  ∀ f : Fault, f = .tickBeforeReset

/-- A row selected inside a tick stops where the tick would, and nowhere else (the model's choice, log entry 1). -/
def Obligations.SelectedRowsStopWhereTheTickDoes : Prop :=
  ∀ (i : Instr) (s : State), i.format ≠ .ifaceCmd →
    (exec i s = .fault .tickBeforeReset ↔ s.fc = none ∨ s.sr = none)

/-- Rule R140: each operation completes in every state in which `FC` and `SR` hold values. -/
def Obligations.EveryOperationCompletesOnceReset : Prop :=
  ∀ (i : Instr) (s : State), HoldsValues s → ∃ t, exec i s = .next t

/-! ### Frames -/

/-- What the rows that may write `SR` leave unchanged: everything but `SR` and the output port. That a row run by itself does not
commit `FC`, and has this effect at all, is the model's reading (log entry 1, DEDUCED). -/
def Obligations.ShiftRegisterRowsFrame : Prop :=
  ∀ i ∈ [Instr.fpAdvance, .fpAdvanceIf08, .fpAdvanceIf16, .fpAdvanceIf24, .lfsrShift, .lfsrShiftXor, .gatePass],
    ∀ s t : State, exec i s = .next t →
      t.fc = s.fc ∧ t.duty = s.duty ∧ t.params = s.params ∧ t.pending = s.pending ∧ t.opIndex = s.opIndex ∧
      t.writes = s.writes

/-- What the idle and the blocking rows leave unchanged: everything but the output port. That these rows run by themselves with
this effect is the model's reading (log entry 1, DEDUCED). -/
def Obligations.IdleRowsFrame : Prop :=
  ∀ (pos : FramePos) (g : BitVec 2),
    ∀ i ∈ [Instr.fpIdleL1 pos, .fpIdleL2 pos, .fpIdleL3 pos, .fpIdleL4 pos, .fpIdleL5 pos, .fpIdleL6 pos, .fpIdle07,
        .fpIdle15, .fpIdle23, .gateBlockB2 g, .gateBlockB3],
      ∀ s t : State, exec i s = .next t →
        t.fc = s.fc ∧ t.sr = s.sr ∧ t.duty = s.duty ∧ t.params = s.params ∧ t.pending = s.pending ∧
        t.opIndex = s.opIndex ∧ t.writes = s.writes

/-- What the emitting rows leave unchanged: everything but `DUTY`, the output port and the observation. That a duty row is a
write of its own, and that no row commits `FC`, is the model's reading (log entry 1, DEDUCED). -/
def Obligations.EmittingRowsFrame : Prop :=
  ∀ i ∈ [Instr.fpEmit, .dutyFull, .dutyNibble],
    ∀ s t : State, exec i s = .next t →
      t.fc = s.fc ∧ t.sr = s.sr ∧ t.params = s.params ∧ t.pending = s.pending ∧ t.opIndex = s.opIndex

/-- What the commands leave unchanged: `HOLD` everything but the port; `RESET` all but the two registers and the port;
`TICK` the parameters, the input and the count, and `SR`, `DUTY` and the observation where the gate is closed or the
position is not 31. -/
def Obligations.CommandsFrame : Prop :=
  (∀ s t : State, exec .hold s = .next t →
    t.fc = s.fc ∧ t.sr = s.sr ∧ t.duty = s.duty ∧ t.params = s.params ∧ t.pending = s.pending ∧
    t.opIndex = s.opIndex ∧ t.writes = s.writes) ∧
  (∀ cmd, ∀ s t : State, exec (.reset cmd) s = .next t →
    t.duty = s.duty ∧ t.params = s.params ∧ t.pending = s.pending ∧ t.opIndex = s.opIndex ∧ t.writes = s.writes) ∧
  ∀ s t : State, exec .tick s = .next t →
    t.params = s.params ∧ t.pending = s.pending ∧ t.opIndex = s.opIndex ∧
    (t.fc ≠ some 31#5 → t.duty = s.duty ∧ t.writes = s.writes) ∧
    ∀ fc1 x, t.fc = some fc1 → s.sr = some x → gate fc1 x = false → t.sr = s.sr

/-- The parameters never change (rule R28: no configurability at runtime), by no step whatever is delivered. -/
def Obligations.NoStepChangesTheParameters : Prop :=
  ∀ s t : State, step s = .next t → t.params = s.params

/-! ### The LFSR step -/

/-- Rules R100 and R104, bit by bit: bit `i` of the result is bit `i + 1` of the word, 0 entering at the top, XORed with
bit `i` of the feedback constant when pre-shift bit 0 says so. -/
def Obligations.LfsrStepBitByBit : Prop :=
  ∀ (x : SrWord) (i : Nat), i < 32 →
    (lfsrStep .onOne x).getLsbD i =
      ((decide (i < 31) && x.getLsbD (i + 1)) ^^ (x.getLsbD 0 && (0x7FFFF159#32).getLsbD i)) ∧
    (lfsrStep .onZero x).getLsbD i =
      ((decide (i < 31) && x.getLsbD (i + 1)) ^^ (!x.getLsbD 0 && (0x7FFFF159#32).getLsbD i))

/-- Rule R101: the set bits of the feedback constant are 0, 3, 4, 6, 8 and 12 to 30. -/
def Obligations.FeedbackConstantBits : Prop :=
  feedback = 0x7FFFF159#32 ∧ feedback = 0b01111111111111111111000101011001#32 ∧
  (∀ i, feedback.getLsbD i = true ↔ (i = 0 ∨ i = 3 ∨ i = 4 ∨ i = 6 ∨ i = 8 ∨ (12 ≤ i ∧ i ≤ 30))) ∧
  ((List.range 32).filter feedback.getLsbD).length = 24

/-- Rule R102: the byte-serial form is the shift, and its final carry is the pre-shift bit 0. -/
def Obligations.ByteSerialFormIsTheShift : Prop :=
  ∀ x : SrWord, byteSerialShift x = (x >>> 1, x.extractLsb' 0 1)

/-- Rule R104: under `ON_ZERO` the XOR is applied when `b0 = 0` and skipped when `b0 = 1`, so the value is the `ON_ONE`
value XOR the constant. -/
def Obligations.VariantPolarityIsTheOtherBranch : Prop :=
  ∀ x : SrWord, lfsrStep .onZero x = lfsrStep .onOne x ^^^ 0x7FFFF159#32 ∧
    (x.getLsbD 0 = false → lfsrStep .onZero x = (x >>> 1) ^^^ 0x7FFFF159#32) ∧
    (x.getLsbD 0 = true → lfsrStep .onZero x = x >>> 1)

/-- Rule R105: 0 is the only fixed point of the normative step, and `0x55555E6E` the only one of the variant. -/
def Obligations.OnlyFixedPoints : Prop :=
  (∀ x : SrWord, lfsrStep .onOne x = x ↔ x = 0#32) ∧
  (∀ x : SrWord, lfsrStep .onZero x = x ↔ x = 0x55555E6E#32) ∧
  lfsrStep .onZero 0#32 = 0x7FFFF159#32

/-- Rule R107: the normative step is linear; two words collide exactly when they differ by `0xFFFFE2B3`; a value with bit
31 clear has exactly two predecessors, one with bit 31 clear, which `LfsrStepInv` gives, and one with it set; a value
with bit 31 set has none; the variant collides on the same pairs. -/
def Obligations.LfsrStepCollisionsAndInverse : Prop :=
  (∀ x y : SrWord, lfsrStep .onOne (x ^^^ y) = lfsrStep .onOne x ^^^ lfsrStep .onOne y) ∧
  (∀ x : SrWord, lfsrStep .onOne x = 0#32 ↔ x = 0#32 ∨ x = 0xFFFFE2B3#32) ∧
  (∀ (pol : FeedbackPolarity) (x y : SrWord), lfsrStep pol x = lfsrStep pol y ↔ x = y ∨ x = y ^^^ 0xFFFFE2B3#32) ∧
  (∀ t : SrWord, t.getLsbD 31 = false →
    (lfsrStepInv t).getLsbD 31 = false ∧ lfsrStep .onOne (lfsrStepInv t) = t ∧
    (lfsrStepInv t ^^^ 0xFFFFE2B3#32).getLsbD 31 = true ∧
    ∀ x, lfsrStep .onOne x = t ↔ x = lfsrStepInv t ∨ x = lfsrStepInv t ^^^ 0xFFFFE2B3#32) ∧
  (∀ x : SrWord, x.getLsbD 31 = false → lfsrStepInv (lfsrStep .onOne x) = x) ∧
  ∀ (pol : FeedbackPolarity) (x : SrWord), (lfsrStep pol x).getLsbD 31 = false

/-- One cycle of each of the three short lengths of the table of rule R108, from the least state it names for it, with its
exact length. How many cycles of a length there are is not stated here. -/
def Obligations.ShortLfsrCycles : Prop :=
  ∀ c ∈ [(15, 0x0ECA1C61#32), (73, 0x007FBF91#32), (1095, 0x000761DF#32)],
    (lfsrStep .onOne)^[c.1] c.2 = c.2 ∧ ∀ k, 0 < k → k < c.1 → (lfsrStep .onOne)^[k] c.2 ≠ c.2

/-! ### The duty mapper and the duty write -/

/-- Rule R120: the duty value is `0xFF` where bit 4 is set, and else the low nibble over `0b1111`. -/
def Obligations.DutyMapFollowsBit4AndTheNibble : Prop :=
  ∀ x : SrWord, (dutyMap x).toNat = if x.getLsbD 4 then 255 else x.toNat % 16 * 16 + 15

/-- Rule R123: `DutyMap` takes exactly the 16 values with low nibble `0xF`; on the dim branch the value fixes the nibble;
of the 32 values of `s[4:0]`, 17 give `0xFF` and every other value of the range comes from exactly one. -/
def Obligations.DutyMapRange : Prop :=
  (∀ x : SrWord, (dutyMap x).toNat % 16 = 15) ∧
  (∀ v : Byte, v.toNat % 16 = 15 → ∃ x : SrWord, x.getLsbD 4 = false ∧ dutyMap x = v) ∧
  (∀ x : SrWord, x.getLsbD 4 = false → (dutyMap x).toNat / 16 = x.toNat % 16) ∧
  ((List.range 32).filter (fun n => dutyMap (BitVec.ofNat 32 n) = 0xFF#8)).length = 17 ∧
  ∀ v : Byte, v.toNat % 16 = 15 → v ≠ 0xFF#8 →
    ((List.range 32).filter (fun n => dutyMap (BitVec.ofNat 32 n) = v)).length = 1

/-- Rule R124: `DutyMap` reads `s[4:0]` only; where bit 4 is clear the low nibble alone determines it. -/
def Obligations.DutyMapReadsFiveBits : Prop :=
  (∀ x y : SrWord, x.extractLsb' 0 5 = y.extractLsb' 0 5 → dutyMap x = dutyMap y) ∧
  ∀ x y : SrWord, x.getLsbD 4 = false → y.getLsbD 4 = false → x.extractLsb' 0 4 = y.extractLsb' 0 4 →
    dutyMap x = dutyMap y

/-- Rule R125: `DutyWrite(v)` puts `v` into `DUTY` and on the port and is observed at its operation's index, also when
`DUTY` already holds `v`; nothing else changes; the tick that lands on position 31 performs it. -/
def Obligations.DutyWriteIsAlwaysAWrite : Prop :=
  (∀ (v : Byte) (s : State), dutyWrite v s =
    { s with duty := some v, dutyPort := some v, writes := s.writes ++ [⟨s.opIndex, v⟩] } ∧
    dutyWe (dutyWrite v s) = true ∧ dutyWdata (dutyWrite v s) = v) ∧
  ∀ (s : State) (x : SrWord), s.fc = some 30#5 → s.sr = some x →
    exec .tick s = .next { dutyWrite (dutyMap x) s with fc := some 31#5 }

/-! ### Runs of ticks -/

/-- Rule R88: under repeated `TICK` the counter takes its values in order modulo 32, never exceeds 31, and returns to
where it started after exactly 32 ticks. -/
def Obligations.FrameCounterCycles : Prop :=
  ∀ (s : State) (fc : FramePos) (x : SrWord), s.fc = some fc → s.sr = some x →
    ∀ n, ∃ t fc', runTicks n s = .next t ∧ t.fc = some fc' ∧ fc'.toNat = (fc.toNat + n) % 32 ∧ fc'.toNat ≤ 31 ∧
      (t.fc = s.fc ↔ 32 ∣ n)

/-- Rule R89, its counts: any 32 consecutive ticks write the duty register exactly once and advance the LFSR at least
once and at most four times. -/
def Obligations.OneWriteAndOneToFourAdvancesPerFrame : Prop :=
  ∀ (s : State) (fc : FramePos) (x : SrWord), s.fc = some fc → s.sr = some x →
    ∃ t k v j, runTicks 32 s = .next t ∧ 1 ≤ k ∧ k ≤ 4 ∧ t.sr = some ((lfsrStep s.params.feedbackPolarity)^[k] x) ∧
      t.writes = s.writes ++ [⟨s.opIndex + j, v⟩] ∧ j = (62 - fc.toNat) % 32 ∧ t.duty = some v ∧ t.fc = s.fc

/-- Rule R90: from `FC = 0` the first duty write is the 31st tick's, and writes follow every 32 ticks; the first advance
is at tick 8 where the gate field is zero, and else at tick 32. -/
def Obligations.FirstWriteAndFirstAdvanceAfterReset : Prop :=
  ∀ (s : State) (x : SrWord), s.fc = some 0#5 → s.sr = some x →
    ∀ n, ∃ t, runTicks n s = .next t ∧ t.writes.length = s.writes.length + (n + 1) / 32 ∧
      (n ≤ 7 → t.sr = some x) ∧
      (x &&& 0x0000000C#32 = 0#32 → n = 8 → t.sr = some (lfsrStep s.params.feedbackPolarity x)) ∧
      (x &&& 0x0000000C#32 ≠ 0#32 → n ≤ 31 → t.sr = some x) ∧
      (x &&& 0x0000000C#32 ≠ 0#32 → n = 32 → t.sr = some (lfsrStep s.params.feedbackPolarity x))

/-- The reachability part of rule R163: every state with `FC <= 7` is reached by a `RESET` under the seed `SR` and `FC`
ticks. -/
def Obligations.LowFrameCountersAreReachable : Prop :=
  ∀ (p : Params) (k : Nat) (x : SrWord), k ≤ 7 →
    ∃ t, Sys2Proof.core.run (k + 1) { State.powerOn { p with srSeed := x } with
        pending := .command 0b10 :: List.replicate k (.command 0b01) } = .next t ∧
      t.fc = some (BitVec.ofNat 5 k) ∧ t.sr = some x ∧ t.writes = []

/-! ### Whole-machine rules -/

/-- Rule R92: what an operation makes of the registers and the port is determined by `FC`, `SR` and the two parameters
the rules read; nothing depends on the value in `DUTY`, on the tick frequency or on anything else; `TICK` is total
where the registers hold values, and `HOLD` is the identity. -/
def Obligations.OperationsDependOnRegistersAndParametersOnly : Prop :=
  (∀ (i : Instr) (s u : State), s.fc = u.fc → s.sr = u.sr → s.params.srSeed = u.params.srSeed →
    s.params.feedbackPolarity = u.params.feedbackPolarity →
    (exec i s = .fault .tickBeforeReset ∧ exec i u = .fault .tickBeforeReset) ∨
    ∃ t v, exec i s = .next t ∧ exec i u = .next v ∧ t.fc = v.fc ∧ t.sr = v.sr ∧ t.dutyPort = v.dutyPort) ∧
  (∀ s : State, HoldsValues s → ∃ t, exec .tick s = .next t) ∧
  ∀ s : State, ∃ t, exec .hold s = .next t ∧ t.fc = s.fc ∧ t.sr = s.sr ∧ t.duty = s.duty ∧ t.dutyPort = none

/-- Rule R111: `SR` is changed by no command but an advancing `TICK`, by one LFSR step, and `RESET`, to the seed. -/
def Obligations.NoOtherWriterOfTheShiftRegister : Prop :=
  ∀ (i : Instr) (s t : State), i.format = .ifaceCmd → exec i s = .next t → t.sr ≠ s.sr →
    (i = .tick ∧ ∃ fc x, s.fc = some fc ∧ s.sr = some x ∧ gate (inc5 fc) x = true ∧
      t.sr = some (lfsrStep s.params.feedbackPolarity x)) ∨
    (∃ cmd, i = .reset cmd ∧ t.sr = some s.params.srSeed)

/-- `DUTY` keeps the last value written: a step changes it only by the tick that lands on position 31, or by losing power
(log entry 10). -/
def Obligations.DutyKeepsTheLastValueWritten : Prop :=
  ∀ s t : State, step s = .next t → t.duty ≠ s.duty →
    (s.fc = some 30#5 ∧ t.fc = some 31#5 ∧ ∃ x, s.sr = some x ∧ t.duty = some (dutyMap x) ∧
      t.writes = s.writes ++ [⟨s.opIndex, dutyMap x⟩]) ∨
    (∃ rest, s.pending = .powerCycle :: rest ∧ t.duty = s.params.dutyReset)

/-- Rule R106, first part with its consequence over runs: every result of the LFSR step has bit 31 clear, and from a state
whose seed and `SR` have it clear every step leaves it so. -/
def Obligations.TopBitStaysClear : Prop :=
  (∀ (pol : FeedbackPolarity) (x : SrWord), (lfsrStep pol x).getLsbD 31 = false) ∧
  ∀ s t : State, TopBitClear s → step s = .next t → TopBitClear t

/-- The states rule R163 calls unreachable stay unreached: a set bit 31 at or beyond position 8 stands behind a gate
field that is not zero. Every step keeps it, and so no step reaches `FC = 8` with bit 31 set and the gate field zero. -/
def Obligations.TopBitNeverPassesAnOpenGate : Prop :=
  (∀ s t : State, TopBitOnlyBehindClosedGate s → step s = .next t → TopBitOnlyBehindClosedGate t) ∧
  ∀ s : State, TopBitOnlyBehindClosedGate s →
    ¬ ∃ x, s.fc = some 8#5 ∧ s.sr = some x ∧ x.getLsbD 31 = true ∧ x.extractLsb' 2 2 = 0#2

/-- Rule R109: with the normative seed the register stays 0, every duty write is `0x0F`, and every gate passes. -/
def Obligations.NormativeResetStateDoesNotFlicker : Prop :=
  DoesNotFlicker State.reset ∧
  (∀ s t : State, DoesNotFlicker s → step s = .next t → DoesNotFlicker t) ∧
  lfsrStep .onOne 0#32 = 0#32 ∧ dutyMap 0#32 = 0x0F#8 ∧
  ∀ fc1 : FramePos, fc1.toNat % 8 = 0 → gate fc1 0#32 = true

/-- Every step keeps the observation well: in operation order, of operations that ran, each value with low nibble `0xF`,
the port agreeing with `DUTY` and the last write. -/
def Obligations.StepKeepsTheObservationWellKept : Prop :=
  ∀ s t : State, ObservationWf s → step s = .next t → ObservationWf t

/-- The invariants hold at reset and at power-on, whatever the parameters; the top-bit one where the seed allows it. -/
def Obligations.InvariantsHoldAtTheStart : Prop :=
  ObservationWf State.reset ∧ TopBitOnlyBehindClosedGate State.reset ∧ TopBitClear State.reset ∧
  Booted State.reset ∧
  ∀ p : Params, ObservationWf (State.powerOn p) ∧ TopBitOnlyBehindClosedGate (State.powerOn p) ∧
    Booted (State.powerOn p) ∧ (p.srSeed.getLsbD 31 = false → TopBitClear (State.powerOn p))

/-- The startup contract is enough (rules R140, R142 and R162): a state whose stream delivers no tick before a reset,
power cycles included, takes any number of steps without stopping. -/
def Obligations.BootedRunsNeverStop : Prop :=
  ∀ (n : Nat) (s : State), Booted s → ∃ t, Sys2Proof.core.run n s = .next t ∧ Booted t
end

