-- ==== Sys2Proof/Laws/State.lean ====
section
/-!
SUPPORT. What each update of the state does to each field, one lemma per field per update.
-/

namespace Sys2Proof.Machine

variable (s : State)

/-! ### writeSr -/

@[simp] theorem writeSr_fc (v : SrWord) : (writeSr v s).fc = s.fc := rfl
@[simp] theorem writeSr_sr (v : SrWord) : (writeSr v s).sr = some v := rfl
@[simp] theorem writeSr_duty (v : SrWord) : (writeSr v s).duty = s.duty := rfl
@[simp] theorem writeSr_params (v : SrWord) : (writeSr v s).params = s.params := rfl
@[simp] theorem writeSr_pending (v : SrWord) : (writeSr v s).pending = s.pending := rfl
@[simp] theorem writeSr_dutyPort (v : SrWord) : (writeSr v s).dutyPort = s.dutyPort := rfl
@[simp] theorem writeSr_opIndex (v : SrWord) : (writeSr v s).opIndex = s.opIndex := rfl
@[simp] theorem writeSr_writes (v : SrWord) : (writeSr v s).writes = s.writes := rfl

/-! ### commitFc -/

@[simp] theorem commitFc_fc (v : FramePos) : (commitFc v s).fc = some v := rfl
@[simp] theorem commitFc_sr (v : FramePos) : (commitFc v s).sr = s.sr := rfl
@[simp] theorem commitFc_duty (v : FramePos) : (commitFc v s).duty = s.duty := rfl
@[simp] theorem commitFc_params (v : FramePos) : (commitFc v s).params = s.params := rfl
@[simp] theorem commitFc_pending (v : FramePos) : (commitFc v s).pending = s.pending := rfl
@[simp] theorem commitFc_dutyPort (v : FramePos) : (commitFc v s).dutyPort = s.dutyPort := rfl
@[simp] theorem commitFc_opIndex (v : FramePos) : (commitFc v s).opIndex = s.opIndex := rfl
@[simp] theorem commitFc_writes (v : FramePos) : (commitFc v s).writes = s.writes := rfl

/-! ### noWrite -/

@[simp] theorem noWrite_fc : (noWrite s).fc = s.fc := rfl
@[simp] theorem noWrite_sr : (noWrite s).sr = s.sr := rfl
@[simp] theorem noWrite_duty : (noWrite s).duty = s.duty := rfl
@[simp] theorem noWrite_params : (noWrite s).params = s.params := rfl
@[simp] theorem noWrite_pending : (noWrite s).pending = s.pending := rfl
@[simp] theorem noWrite_dutyPort : (noWrite s).dutyPort = none := rfl
@[simp] theorem noWrite_opIndex : (noWrite s).opIndex = s.opIndex := rfl
@[simp] theorem noWrite_writes : (noWrite s).writes = s.writes := rfl

/-! ### dutyWrite -/

@[simp] theorem dutyWrite_fc (v : Byte) : (dutyWrite v s).fc = s.fc := rfl
@[simp] theorem dutyWrite_sr (v : Byte) : (dutyWrite v s).sr = s.sr := rfl
@[simp] theorem dutyWrite_duty (v : Byte) : (dutyWrite v s).duty = some v := rfl
@[simp] theorem dutyWrite_params (v : Byte) : (dutyWrite v s).params = s.params := rfl
@[simp] theorem dutyWrite_pending (v : Byte) : (dutyWrite v s).pending = s.pending := rfl
@[simp] theorem dutyWrite_dutyPort (v : Byte) : (dutyWrite v s).dutyPort = some v := rfl
@[simp] theorem dutyWrite_opIndex (v : Byte) : (dutyWrite v s).opIndex = s.opIndex := rfl
@[simp] theorem dutyWrite_writes (v : Byte) : (dutyWrite v s).writes = s.writes ++ [⟨s.opIndex, v⟩] := rfl

/-! ### powerCycle -/

@[simp] theorem powerCycle_fc : (powerCycle s).fc = none := rfl
@[simp] theorem powerCycle_sr : (powerCycle s).sr = none := rfl
@[simp] theorem powerCycle_duty : (powerCycle s).duty = s.params.dutyReset := rfl
@[simp] theorem powerCycle_params : (powerCycle s).params = s.params := rfl
@[simp] theorem powerCycle_pending : (powerCycle s).pending = s.pending := rfl
@[simp] theorem powerCycle_dutyPort : (powerCycle s).dutyPort = none := rfl
@[simp] theorem powerCycle_opIndex : (powerCycle s).opIndex = s.opIndex := rfl
@[simp] theorem powerCycle_writes : (powerCycle s).writes = s.writes := rfl

/-! ### countOp -/

@[simp] theorem countOp_fc : (countOp s).fc = s.fc := rfl
@[simp] theorem countOp_sr : (countOp s).sr = s.sr := rfl
@[simp] theorem countOp_duty : (countOp s).duty = s.duty := rfl
@[simp] theorem countOp_params : (countOp s).params = s.params := rfl
@[simp] theorem countOp_pending : (countOp s).pending = s.pending := rfl
@[simp] theorem countOp_dutyPort : (countOp s).dutyPort = s.dutyPort := rfl
@[simp] theorem countOp_opIndex : (countOp s).opIndex = s.opIndex + 1 := rfl
@[simp] theorem countOp_writes : (countOp s).writes = s.writes := rfl

end Sys2Proof.Machine
end

