-- ==== Sys2Proof/Laws/Ops.lean ====
section
/-!
SUPPORT. Everything each shared operation can do, said once: the entry of a tick, the taking of a delivered item, and
one step.
-/

namespace Sys2Proof.Machine

/-! ### The entry of a tick -/

theorem inTick_of_values {s : State} {fc : FramePos} {sr : SrWord} (hf : s.fc = some fc) (hs : s.sr = some sr)
    (body : FramePos → SrWord → State) : inTick s body = .next (body fc sr) := by
  simp [inTick, hf, hs]

/-- A tick that answers a next state started with both registers holding values. -/
theorem inTick_next {s t : State} {body : FramePos → SrWord → State} (h : inTick s body = .next t) :
    ∃ fc sr, s.fc = some fc ∧ s.sr = some sr ∧ t = body fc sr := by
  cases hf : s.fc with
  | none => simp [inTick, hf] at h
  | some fc =>
    cases hs : s.sr with
    | none => simp [inTick, hf, hs] at h
    | some sr => exact ⟨fc, sr, rfl, rfl, by simpa [inTick, hf, hs] using h.symm⟩

/-- A tick stops in exactly the states with a register that holds no value. -/
theorem inTick_fault_iff {s : State} {body : FramePos → SrWord → State} {f : Fault} :
    inTick s body = .fault f ↔ s.fc = none ∨ s.sr = none := by
  cases f
  cases hf : s.fc <;> cases hs : s.sr <;> simp [inTick, hf, hs]

theorem inTick_not_refused {s : State} {body : FramePos → SrWord → State} {r : Refusal} :
    inTick s body ≠ .refused r := by
  cases hf : s.fc <;> cases hs : s.sr <;> simp [inTick, hf, hs]

/-! ### What is delivered -/

@[simp] theorem takeEvent_nil {s : State} (h : s.pending = []) : takeEvent s = .command 0b00#2 s := by
  simp [takeEvent, h]

@[simp] theorem takeEvent_command {s : State} {cmd : CmdWord} {rest : List Event}
    (h : s.pending = .command cmd :: rest) : takeEvent s = .command cmd { s with pending := rest } := by
  simp [takeEvent, h]

@[simp] theorem takeEvent_timerOverflow {s : State} {rest : List Event} (h : s.pending = .timerOverflow :: rest) :
    takeEvent s = .command (firedCommand s) { s with pending := rest } := by
  simp [takeEvent, h]

@[simp] theorem takeEvent_powerCycle {s : State} {rest : List Event} (h : s.pending = .powerCycle :: rest) :
    takeEvent s = .power { s with pending := rest } := by
  simp [takeEvent, h]

/-- Without `TICK_LOSS` a fired tick is a `TICK`. -/
theorem firedCommand_of_no_loss {s : State} (h : s.params.tickLoss = false) : firedCommand s = 0b01#2 := by
  simp [firedCommand, h]

/-- A fired tick is a `TICK` or is lost. -/
theorem firedCommand_cases (s : State) : firedCommand s = 0b01#2 ∨ firedCommand s = 0b00#2 := by
  unfold firedCommand
  split
  · exact .inr rfl
  · exact .inl rfl

/-- Taking an item changes nothing but what is pending. -/
theorem takeEvent_cases (s : State) :
    (∃ cmd rest, takeEvent s = .command cmd { s with pending := rest }) ∨
    (∃ rest, s.pending = .powerCycle :: rest ∧ takeEvent s = .power { s with pending := rest }) := by
  cases h : s.pending with
  | nil => exact .inl ⟨0b00#2, [], by rw [takeEvent_nil h, ← h]⟩
  | cons e rest =>
    cases e with
    | command cmd => exact .inl ⟨cmd, rest, takeEvent_command h⟩
    | timerOverflow => exact .inl ⟨firedCommand s, rest, takeEvent_timerOverflow h⟩
    | powerCycle => exact .inr ⟨rest, rfl, takeEvent_powerCycle h⟩

/-! ### Finishing an operation -/

@[simp] theorem finishOp_next (s : State) : finishOp (.next s) = .next (countOp s) := rfl

theorem finishOp_eq_next {o : Host.Outcome State Fault Refusal} {t : State} (h : finishOp o = .next t) :
    ∃ u, o = .next u ∧ t = countOp u := by
  cases o with
  | next u => exact ⟨u, rfl, by simpa [finishOp] using h.symm⟩
  | fault f => simp [finishOp] at h
  | refused r => simp [finishOp] at h

/-! ### The commands and the step -/

/-- A command word decodes to one of the three commands. -/
theorem decodeCommand_cases (cmd : CmdWord) :
    decodeCommand cmd = .hold ∨ decodeCommand cmd = .tick ∨ decodeCommand cmd = .reset cmd := by
  unfold decodeCommand
  split
  · exact .inl rfl
  · split
    · exact .inr (.inl rfl)
    · exact .inr (.inr rfl)

/-- The step at a command. -/
theorem step_of_command {s t : State} {cmd : CmdWord} (h : takeEvent s = .command cmd t) :
    step s = finishOp (exec (decodeCommand cmd) t) := by
  rw [step, h]

/-- The step at a power cycle. -/
theorem step_of_power {s t : State} (h : takeEvent s = .power t) : step s = .next (powerCycle t) := by
  rw [step, h]

/-- Everything a completed `TICK` can be. -/
theorem execTick_next {s t : State} (h : execTick s = .next t) :
    ∃ fc sr s1, s.fc = some fc ∧ s.sr = some sr ∧
      s1 = (if gate (inc5 fc) sr then lfsrStep s.params.feedbackPolarity sr else sr) ∧
      t = commitFc (inc5 fc) (writeSr s1 (emit (inc5 fc) s1 s)) := by
  obtain ⟨fc, sr, hf, hs, rfl⟩ := inTick_next h
  exact ⟨fc, sr, _, hf, hs, rfl, rfl⟩

/-- Everything a step that answers a next state can be: a hold, a tick, a reset, or a power cycle. -/
theorem step_cases {s t : State} (h : step s = .next t) :
    (∃ rest, s.pending = .powerCycle :: rest ∧ t = powerCycle { s with pending := rest }) ∨
    (∃ rest, t = countOp (noWrite { s with pending := rest })) ∨
    (∃ rest u, execTick { s with pending := rest } = .next u ∧ t = countOp u) ∨
    (∃ rest, t = countOp (noWrite (commitFc 0#5 (writeSr s.params.srSeed { s with pending := rest })))) := by
  obtain ⟨cmd, rest, he⟩ | ⟨rest, hp, he⟩ := takeEvent_cases s
  · simp only [step, he] at h
    obtain ⟨u, hu, rfl⟩ := finishOp_eq_next h
    obtain hc | hc | hc := decodeCommand_cases cmd
    · refine .inr (.inl ⟨rest, ?_⟩)
      simp only [hc, exec, execHold] at hu
      cases hu; rfl
    · exact .inr (.inr (.inl ⟨rest, u, by simpa [hc, exec] using hu, rfl⟩))
    · refine .inr (.inr (.inr ⟨rest, ?_⟩))
      simp only [hc, exec, execReset] at hu
      cases hu; rfl
  · refine .inl ⟨rest, hp, ?_⟩
    simpa [step, he] using h.symm

end Sys2Proof.Machine
end

