-- ==== Sys2Proof/Laws/Exec.lean ====
section
/-!
SUPPORT. Each operation's meaning over the shared operations, one equation each, and the one shape they share.
-/

namespace Sys2Proof.Machine

open Sys2Proof.Config

variable (s : State)

@[simp] theorem exec_hold : exec .hold s = .next (noWrite s) := rfl
@[simp] theorem exec_tick : exec .tick s = execTick s := rfl
@[simp] theorem exec_reset (cmd : CmdWord) :
    exec (.reset cmd) s = .next (noWrite (commitFc 0#5 (writeSr s.params.srSeed s))) := rfl
@[simp] theorem exec_fpAdvance : exec .fpAdvance s = advance s := rfl
@[simp] theorem exec_fpAdvanceIf08 : exec .fpAdvanceIf08 s = advanceIf s := rfl
@[simp] theorem exec_fpAdvanceIf16 : exec .fpAdvanceIf16 s = advanceIf s := rfl
@[simp] theorem exec_fpAdvanceIf24 : exec .fpAdvanceIf24 s = advanceIf s := rfl
@[simp] theorem exec_fpEmit : exec .fpEmit s = inTick s fun _ sr => dutyWrite (dutyMap sr) s := rfl
@[simp] theorem exec_fpIdleL1 (pos : FramePos) : exec (.fpIdleL1 pos) s = stay s := rfl
@[simp] theorem exec_fpIdleL2 (pos : FramePos) : exec (.fpIdleL2 pos) s = stay s := rfl
@[simp] theorem exec_fpIdleL3 (pos : FramePos) : exec (.fpIdleL3 pos) s = stay s := rfl
@[simp] theorem exec_fpIdleL4 (pos : FramePos) : exec (.fpIdleL4 pos) s = stay s := rfl
@[simp] theorem exec_fpIdleL5 (pos : FramePos) : exec (.fpIdleL5 pos) s = stay s := rfl
@[simp] theorem exec_fpIdleL6 (pos : FramePos) : exec (.fpIdleL6 pos) s = stay s := rfl
@[simp] theorem exec_fpIdle07 : exec .fpIdle07 s = stay s := rfl
@[simp] theorem exec_fpIdle15 : exec .fpIdle15 s = stay s := rfl
@[simp] theorem exec_fpIdle23 : exec .fpIdle23 s = stay s := rfl
@[simp] theorem exec_lfsrShift : exec .lfsrShift s = inTick s fun _ sr => noWrite (writeSr (sr >>> 1) s) := rfl
@[simp] theorem exec_lfsrShiftXor :
    exec .lfsrShiftXor s = inTick s fun _ sr => noWrite (writeSr ((sr >>> 1) ^^^ feedback) s) := rfl
@[simp] theorem exec_gatePass : exec .gatePass s = advance s := rfl
@[simp] theorem exec_gateBlockB2 (g : BitVec 2) : exec (.gateBlockB2 g) s = stay s := rfl
@[simp] theorem exec_gateBlockB3 : exec .gateBlockB3 s = stay s := rfl
@[simp] theorem exec_dutyFull : exec .dutyFull s = inTick s fun _ _ => dutyWrite Config.dutyFull s := rfl
@[simp] theorem exec_dutyNibble : exec .dutyNibble s = inTick s fun _ sr => dutyWrite (dimValue (nibble sr)) s := rfl

/-- Every operation but `HOLD` and `RESET` is a body run through the entry of a tick. -/
theorem exec_shape (i : Instr) :
    i = .hold ∨ (∃ cmd, i = .reset cmd) ∨
    (i ≠ .hold ∧ (∀ cmd, i ≠ .reset cmd) ∧ ∃ body, exec i s = inTick s body) := by
  cases i with
  | hold => exact .inl rfl
  | reset cmd => exact .inr (.inl ⟨cmd, rfl⟩)
  | _ => exact .inr (.inr ⟨nofun, nofun, _, rfl⟩)

/-- An advance that completes. -/
theorem advance_next {s t : State} (h : advance s = .next t) :
    ∃ fc sr, s.fc = some fc ∧ s.sr = some sr ∧
      t = noWrite (writeSr (lfsrStep s.params.feedbackPolarity sr) s) :=
  inTick_next h

/-- A conditional advance that completes. -/
theorem advanceIf_next {s t : State} (h : advanceIf s = .next t) :
    ∃ fc sr, s.fc = some fc ∧ s.sr = some sr ∧
      t = if gateField sr = 0b00#2 then noWrite (writeSr (lfsrStep s.params.feedbackPolarity sr) s) else noWrite s :=
  inTick_next h

/-- A row that leaves `SR` alone and writes nothing, completing. -/
theorem stay_next {s t : State} (h : stay s = .next t) :
    ∃ fc sr, s.fc = some fc ∧ s.sr = some sr ∧ t = noWrite s :=
  inTick_next h

end Sys2Proof.Machine
end

