-- ==== Sys2Proof/Laws/Functions.lean ====
section
/-!
SUPPORT. Small facts about the functions of a tick: the counter, the gate, the LFSR step and the duty mapper.
-/

namespace Sys2Proof.Machine

open Sys2Proof.Config

theorem inc5_toNat (fc : FramePos) : (inc5 fc).toNat = (fc.toNat + 1) % 32 := by
  simp [inc5]

@[simp] theorem gate_frame_start (s : SrWord) : gate 0#5 s = true := rfl

/-- The gate never opens at the emit position. -/
@[simp] theorem gate_emitPos (s : SrWord) : gate emitPos s = false := rfl

theorem applyFeedback_onOne (s : SrWord) : applyFeedback .onOne s = s.getLsbD 0 := by
  have h : b0 s = 1#1 ↔ s.getLsbD 0 = true := by
    constructor
    · intro h
      have := congrArg (·.getLsbD 0) h
      simpa [b0] using this
    · intro h
      apply BitVec.eq_of_getLsbD_eq
      intro i hi
      obtain rfl : i = 0 := by omega
      simpa [b0] using h
  cases hb : s.getLsbD 0 <;> simp_all [applyFeedback]

/-- The step as the literal rule has it, under the normative polarity. -/
theorem lfsrStep_onOne (s : SrWord) :
    lfsrStep .onOne s = if s.getLsbD 0 then (s >>> 1) ^^^ feedback else s >>> 1 := by
  rw [lfsrStep, applyFeedback_onOne]

@[simp] theorem emit_of_ne {fc1 : FramePos} (h : fc1 ≠ emitPos) (s1 : SrWord) (s : State) :
    emit fc1 s1 s = noWrite s := by
  simp [emit, h]

@[simp] theorem emit_emitPos (s1 : SrWord) (s : State) : emit emitPos s1 s = dutyWrite (dutyMap s1) s := by
  simp [emit]

end Sys2Proof.Machine
end

