-- ==== Sys2Proof/Laws/PerInstr.lean ====
section
/-!
SUPPORT. One fact about every operation as syntax: the word of a well-formed operation lies in the operation's own row
of the opcode table and inside its field.
-/

namespace Sys2Proof.Laws.RowWord

open Sys2Proof

/-- The encoding of `i`, when `i` is well formed, hits `i`'s row and fits the row's field. -/
def Statement (i : Instr) : Prop :=
  i.wellFormed = true → i.row.format = i.format ∧ i.row.hits (encode i) = true ∧ (encode i).toNat < 2 ^ i.format.width

theorem hold : Statement .hold := by unfold Statement; decide
theorem tick : Statement .tick := by unfold Statement; decide
theorem reset : ∀ cmd, Statement (.reset cmd) := by unfold Statement; decide
theorem fpAdvance : Statement .fpAdvance := by unfold Statement; decide
theorem fpAdvanceIf08 : Statement .fpAdvanceIf08 := by unfold Statement; decide
theorem fpAdvanceIf16 : Statement .fpAdvanceIf16 := by unfold Statement; decide
theorem fpAdvanceIf24 : Statement .fpAdvanceIf24 := by unfold Statement; decide
theorem fpEmit : Statement .fpEmit := by unfold Statement; decide
theorem fpIdleL1 : ∀ pos, Statement (.fpIdleL1 pos) := by unfold Statement; decide
theorem fpIdleL2 : ∀ pos, Statement (.fpIdleL2 pos) := by unfold Statement; decide
theorem fpIdleL3 : ∀ pos, Statement (.fpIdleL3 pos) := by unfold Statement; decide
theorem fpIdleL4 : ∀ pos, Statement (.fpIdleL4 pos) := by unfold Statement; decide
theorem fpIdleL5 : ∀ pos, Statement (.fpIdleL5 pos) := by unfold Statement; decide
theorem fpIdleL6 : ∀ pos, Statement (.fpIdleL6 pos) := by unfold Statement; decide
theorem fpIdle07 : Statement .fpIdle07 := by unfold Statement; decide
theorem fpIdle15 : Statement .fpIdle15 := by unfold Statement; decide
theorem fpIdle23 : Statement .fpIdle23 := by unfold Statement; decide
theorem lfsrShift : Statement .lfsrShift := by unfold Statement; decide
theorem lfsrShiftXor : Statement .lfsrShiftXor := by unfold Statement; decide
theorem gatePass : Statement .gatePass := by unfold Statement; decide
theorem gateBlockB2 : ∀ g, Statement (.gateBlockB2 g) := by unfold Statement; decide
theorem gateBlockB3 : Statement .gateBlockB3 := by unfold Statement; decide
theorem dutyFull : Statement .dutyFull := by unfold Statement; decide
theorem dutyNibble : Statement .dutyNibble := by unfold Statement; decide

end Sys2Proof.Laws.RowWord
end

