-- ==== Sys2Proof/Tests/Slice0.lean ====
section
/-!
SUPPORT. The model's own tests. Expected values come from the spec's tables: the encodings of rules R60, R63 and R64 and
the vectors of the test-vector file, named at each test. The witnesses at the end meet the statements' hypotheses.
-/

namespace Sys2Proof.Tests

open Sys2Proof Sys2Proof.Machine Sys2Proof.Config

/-! ### Helpers -/

/-- A state that a `START FC= SR=` directive gives, with `DUTY` at `0x5F`. -/
def at_ (fc : FramePos) (sr : SrWord) : State :=
  { State.reset with fc := some fc, sr := some sr, duty := some 0x5F#8 }

/-- The same under the variant polarity. -/
def atZero (fc : FramePos) (sr : SrWord) : State :=
  { at_ fc sr with params := { Params.normative with feedbackPolarity := .onZero } }

/-- A state with something to deliver. -/
def fed (es : List Event) (s : State) : State := { s with pending := es }

/-- The registers, `DUTY` and the port after a completed operation. -/
def see (o : Host.Outcome State Fault Refusal) :
    Option (Option FramePos × Option SrWord × Option Byte × Option Byte) :=
  match o with
  | .next t => some (t.fc, t.sr, t.duty, t.dutyPort)
  | _ => none

/-! ### Well-formedness: one ill-formed term for each check -/

theorem test_reset_needs_bit1 : (Instr.reset 0b01).wellFormed = false := by decide
theorem test_idleL1_needs_its_low_bits : (Instr.fpIdleL1 0b00010).wellFormed = false := by decide
theorem test_idleL2_needs_its_low_bits : (Instr.fpIdleL2 0b00110).wellFormed = false := by decide
theorem test_idleL3_needs_its_low_bits : (Instr.fpIdleL3 0b00111).wellFormed = false := by decide
theorem test_idleL4_needs_its_low_bits : (Instr.fpIdleL4 0b01000).wellFormed = false := by decide
theorem test_idleL5_needs_its_low_bits : (Instr.fpIdleL5 0b00100).wellFormed = false := by decide
theorem test_idleL6_needs_its_low_bits : (Instr.fpIdleL6 0b11111).wellFormed = false := by decide
theorem test_blockB2_needs_bit2 : (Instr.gateBlockB2 0b10).wellFormed = false := by decide

/-! ### Decoding: the words of the tables of rules R60, R63 and R64 -/

theorem test_decode_commands :
    decode .ifaceCmd 0b00 = .instr .hold ∧ decode .ifaceCmd 0b01 = .instr .tick ∧
    decode .ifaceCmd 0b10 = .instr (.reset 0b10) ∧ decode .ifaceCmd 0b11 = .instr (.reset 0b11) := by decide

theorem test_decode_policy_advances :
    decode .framePolicy 0b00000 = .instr .fpAdvance ∧ decode .framePolicy 0b01000 = .instr .fpAdvanceIf08 ∧
    decode .framePolicy 0b10000 = .instr .fpAdvanceIf16 ∧ decode .framePolicy 0b11000 = .instr .fpAdvanceIf24 ∧
    decode .framePolicy 0b11111 = .instr .fpEmit := by decide

theorem test_decode_policy_idles :
    decode .framePolicy 0b00001 = .instr (.fpIdleL1 0b00001) ∧ decode .framePolicy 0b11010 = .instr (.fpIdleL2 0b11010) ∧
    decode .framePolicy 0b10011 = .instr (.fpIdleL3 0b10011) ∧ decode .framePolicy 0b01100 = .instr (.fpIdleL4 0b01100) ∧
    decode .framePolicy 0b11101 = .instr (.fpIdleL5 0b11101) ∧ decode .framePolicy 0b11110 = .instr (.fpIdleL6 0b11110) ∧
    decode .framePolicy 0b00111 = .instr .fpIdle07 ∧ decode .framePolicy 0b01111 = .instr .fpIdle15 ∧
    decode .framePolicy 0b10111 = .instr .fpIdle23 := by decide

theorem test_decode_lfsr : decode .lfsrSelect 0 = .instr .lfsrShift ∧ decode .lfsrSelect 1 = .instr .lfsrShiftXor := by
  decide

theorem test_decode_gate :
    decode .gateSelect 0b00 = .instr .gatePass ∧ decode .gateSelect 0b01 = .instr (.gateBlockB2 0b01) ∧
    decode .gateSelect 0b11 = .instr (.gateBlockB2 0b11) ∧ decode .gateSelect 0b10 = .instr .gateBlockB3 := by decide

theorem test_decode_duty : decode .dutySelect 1 = .instr .dutyFull ∧ decode .dutySelect 0 = .instr .dutyNibble := by
  decide

theorem test_decode_rejects_by_name :
    decode .ifaceCmd 0b100 = .outsideField .ifaceCmd 0b100 ∧ decode .framePolicy 32 = .outsideField .framePolicy 32 ∧
    decode .dutySelect 2 = .outsideField .dutySelect 2 := by decide

theorem test_table_words :
    decodeTableWord 8 1 = some .tick ∧ decodeTableWord 8 31 = some .fpEmit ∧ decodeTableWord 8 23 = some .fpIdle23 ∧
    decodeTableWord 5 0 = some .fpAdvance ∧ decodeTableWord 8 32 = none := by decide

theorem test_placed_emit_row_runs_first : see (step (State.reset.withFetchWord 8 31)) =
    some (some 31, some 0, some 0x0F, some 0x0F) := by decide

theorem test_placed_command_runs_first : see (step (State.reset.withFetchWord 8 1)) =
    some (some 1, some 0, some 0x00, none) := by decide

/-! ### The commands (vectors §2.6 and §2.7) -/

theorem test_hold : see (exec .hold (at_ 5 0x12345678)) = some (some 5, some 0x12345678, some 0x5F, none) := by decide
theorem test_hold_before_reset : see (exec .hold (State.powerOn Params.normative)) = some (none, none, some 0, none) := by
  decide
theorem test_tick_boundary_s3 : see (exec .tick (at_ 30 0x2F)) = some (some 31, some 0x2F, some 0xFF, some 0xFF) := by
  decide
theorem test_tick_passes_the_gate : see (exec .tick (at_ 15 1)) = some (some 16, some 0x7FFFF159, some 0x5F, none) := by
  decide
theorem test_reset_keeps_duty : see (exec (.reset 0b10) (at_ 17 0xDEADBEEF)) = some (some 0, some 0, some 0x5F, none) := by
  decide
theorem test_reset_with_tick_discards_it : see (step (fed [.command 0b11] (at_ 30 0x10))) =
    some (some 0, some 0, some 0x5F, none) := by decide
theorem test_tick_before_reset : exec .tick (State.powerOn Params.normative) = .fault .tickBeforeReset := rfl

/-! ### The rows (vectors §2.3, §2.5 and §2.6) -/

theorem test_fpAdvance : see (exec .fpAdvance (at_ 31 0xFFFFE2B3)) = some (some 31, some 0, some 0x5F, none) := by decide
theorem test_fpAdvance_onZero : see (exec .fpAdvance (atZero 31 2)) = some (some 31, some 0x7FFFF158, some 0x5F, none) := by
  decide
theorem test_fpAdvanceIf08_blocked : see (exec .fpAdvanceIf08 (at_ 7 4)) = some (some 7, some 4, some 0x5F, none) := by
  decide
theorem test_fpAdvanceIf08_passes : see (exec .fpAdvanceIf08 (at_ 7 0x10)) = some (some 7, some 8, some 0x5F, none) := by
  decide
theorem test_fpAdvanceIf16_passes : see (exec .fpAdvanceIf16 (at_ 15 1)) =
    some (some 15, some 0x7FFFF159, some 0x5F, none) := by decide
theorem test_fpAdvanceIf24_passes : see (exec .fpAdvanceIf24 (at_ 23 3)) =
    some (some 23, some 0x7FFFF158, some 0x5F, none) := by decide
theorem test_fpEmit : see (exec .fpEmit (at_ 30 0xFFFFFFE0)) =
    some (some 30, some 0xFFFFFFE0, some 0x0F, some 0x0F) := by decide
theorem test_fpIdle : see (exec (.fpIdleL6 6) (at_ 5 0xDEADBEEF)) = some (some 5, some 0xDEADBEEF, some 0x5F, none) := by
  decide
theorem test_lfsrShift : see (exec .lfsrShift (at_ 31 0x80000000)) = some (some 31, some 0x40000000, some 0x5F, none) := by
  decide
theorem test_lfsrShiftXor : see (exec .lfsrShiftXor (at_ 31 0xDEADBEEF)) =
    some (some 31, some 0x10A92E2E, some 0x5F, none) := by decide
theorem test_gatePass : see (exec .gatePass (at_ 7 0x80000000)) = some (some 7, some 0x40000000, some 0x5F, none) := by
  decide
theorem test_gateBlockB2 : see (exec (.gateBlockB2 0b11) (at_ 7 0xC)) = some (some 7, some 0xC, some 0x5F, none) := by
  decide
theorem test_gateBlockB3 : see (exec .gateBlockB3 (at_ 7 8)) = some (some 7, some 8, some 0x5F, none) := by decide
theorem test_dutyFull : see (exec .dutyFull (at_ 30 0x10)) = some (some 30, some 0x10, some 0xFF, some 0xFF) := by decide
theorem test_dutyNibble : see (exec .dutyNibble (at_ 30 8)) = some (some 30, some 8, some 0x8F, some 0x8F) := by decide

/-! ### The functions -/

/-- Vectors §2.2: the gate reads bits 3 and 2 alone. -/
theorem test_gate : gate 8 0xFFFFFFF3 = true ∧ gate 8 4 = false ∧ gate 0 0xC = true ∧ gate 31 0 = false := by decide

/-- Vectors §2.3, both polarities. -/
theorem test_lfsrStep : lfsrStep .onOne 0xFFFFFFFF = 0xEA6 ∧ lfsrStep .onOne 0x7FFFF159 = 0x400009F5 ∧
    lfsrStep .onZero 0x12345678 = 0x76E5DA65 ∧ lfsrStep .onZero 0x55555E6E = 0x55555E6E := by decide

/-- Vectors §2.3, the eight steps from 1. -/
theorem test_lfsr_sequence_from_one :
    ([1, 2, 3, 4, 5, 6, 7, 8].map fun n => (lfsrStep .onOne)^[n] 1) =
      [0x7FFFF159#32, 0x400009F5, 0x5FFFF5A3, 0x50000B88, 0x280005C4, 0x140002E2, 0x0A000171, 0x7AFFF1E1] := by decide

/-- Vectors §2.4. -/
theorem test_lfsrStepInv : lfsrStepInv 0x40000000 = 0x7FFFE2B3 ∧ lfsrStepInv 0xEA6 = 0x1D4C ∧
    lfsrStepInv 0x400009F5 = 0x7FFFF159 := by decide

/-- Vectors §2.5. -/
theorem test_dutyMap : dutyMap 0x0E = 0xEF ∧ dutyMap 0x1F = 0xFF ∧ dutyMap 0xDEADBEEF = 0xFF ∧ dutyMap 0xFFFFFFE0 = 0x0F := by
  decide

/-- Program P3 of the test-vector file, its text read and its words. -/
theorem test_readProgram :
    readProgram "START FC=7 SR=0x00000010\nTICKS 24         ; 24 x 0b01" = some [.start 7 0x10, .ticks 24] := by decide

theorem test_readParam : readProgram "PARAM FEEDBACK_POLARITY=ON_ZERO   ; non-normative (D6)\nRESET+TICK" =
    some [.param (.feedbackPolarity .onZero), .resetTick] := by decide

/-- Rule R12: hexadecimal is introduced by `0x`, and its letters are no decimal digits; binary by `0b`. -/
theorem test_readNumber : readNumber "0xDEADbeef".toList = some 3735928559 ∧ readNumber "305".toList = some 305 ∧
    readNumber "0b1011".toList = some 11 ∧ readNumber "0b2".toList = none ∧ readNumber "3A".toList = none ∧ readNumber "0x".toList = none := by decide

theorem test_launch : launch [.param (.srSeed 1), .reset, .holds 2] =
    { State.powerOn { Params.normative with srSeed := 1 } with
      pending := [.command 0b10, .command 0b00, .command 0b00] } := by decide

/-! ### Witnesses: a state and operands that meet the hypotheses of each statement that has any -/

theorem witness_DecodeOfEncodeIsTheOperation :
    (Instr.reset 0b11).wellFormed = true ∧ (Instr.fpIdleL6 0b11110).wellFormed = true ∧
    (Instr.gateBlockB2 0b11).wellFormed = true ∧ Instr.dutyNibble.wellFormed = true := by decide

theorem witness_EncodeOfDecodeIsTheByte : decode .framePolicy 0b11110 = .instr (.fpIdleL6 0b11110) := by decide

/-- Both sides of the field's bound. -/
theorem witness_DecoderAgreesWithTheOpcodeTable :
    ((31 : Byte).toNat < 2 ^ Format.framePolicy.width) ∧ (2 ^ Format.framePolicy.width ≤ (32 : Byte).toNat) := by decide

theorem witness_EachCommandSelectsOneOperation :
    (fed [.command 0b01, .powerCycle] (at_ 5 1)).pending = .command 0b01 :: [.powerCycle] := rfl

theorem witness_StepRunsTheDeliveredCommand : (fed [.command 0b11] (at_ 5 1)).pending = .command 0b11 :: [] := rfl

theorem witness_StepWithNothingPendingHolds : State.reset.pending = [] := rfl

/-- With and without `TICK_LOSS`. -/
theorem witness_FiredTickIsATickUnlessLost :
    (fed [.timerOverflow] (at_ 5 1)).pending = .timerOverflow :: [] ∧ (fed [.timerOverflow] (at_ 5 1)).params.tickLoss = false ∧
    (fed [.timerOverflow] { at_ 5 1 with params := { Params.normative with tickLoss := true } }).params.tickLoss = true :=
  ⟨rfl, rfl, rfl⟩

theorem witness_OnlyAPowerCycleLosesTheRegisters :
    HoldsValues (at_ 30 0x2F) ∧ exec .hold (at_ 30 0x2F) = .next (noWrite (at_ 30 0x2F)) ∧
    (fed [.powerCycle] (at_ 5 1)).pending = .powerCycle :: [] := ⟨⟨rfl, rfl⟩, rfl, rfl⟩

theorem witness_PowerCycleRestoresTheDutyResetValue :
    (fed [.powerCycle, .command 0b10] (at_ 5 1)).pending = .powerCycle :: [.command 0b10] := rfl

theorem witness_HoldChangesNothing : (fed [.command 0b00, .command 0b00, .command 0b01] (at_ 5 1)).pending =
    List.replicate 2 (.command 0b00) ++ [.command 0b01] := rfl

/-- Both words of `RESET`. -/
theorem witness_LateResetStartsANewRun :
    (fed [.command 0b10] (at_ 17 1)).pending = .command 0b10 :: [] ∧ (0b10#2).getLsbD 1 = true ∧
    (fed [.command 0b11] (at_ 17 1)).pending = .command 0b11 :: [] ∧ (0b11#2).getLsbD 1 = true := ⟨rfl, rfl, rfl, rfl⟩

theorem witness_TickIsTheFiveSteps : (atZero 31 2).fc = some 31 ∧ (atZero 31 2).sr = some 2 := by decide

theorem witness_EveryTickIncrementsTheFrameCounter : (at_ 31 0).fc = some 31 ∧ (at_ 31 0).sr = some 0 := by decide

/-- A position for each clause, at its bounds. -/
theorem witness_GateFollowsTheFramePolicy :
    (0 : FramePos).toNat = 0 ∧ (7 : FramePos).toNat % 8 ≠ 0 ∧ (31 : FramePos).toNat % 8 ≠ 0 ∧ (8 : FramePos).toNat = 8 ∧
    (16 : FramePos).toNat = 16 ∧ (24 : FramePos).toNat = 24 ∧ (0xFFFFFFF3 : SrWord).getLsbD 2 = (0 : SrWord).getLsbD 2 ∧
    (0xFFFFFFF3 : SrWord).getLsbD 3 = (0 : SrWord).getLsbD 3 := by decide

/-- A state for an open gate and one for a closed gate. -/
theorem witness_TickAdvancesIffTheGateIsOpen :
    ((at_ 7 0x10).fc = some 7 ∧ (at_ 7 0x10).sr = some 0x10 ∧ gate (inc5 7) 0x10 = true) ∧
    ((at_ 7 4).fc = some 7 ∧ (at_ 7 4).sr = some 4 ∧ gate (inc5 7) 4 = false) := by decide

/-- A position that writes and the two beside it. -/
theorem witness_TickWritesDutyOnlyAtPosition31 :
    (30 : FramePos).toNat = 30 ∧ (29 : FramePos).toNat ≠ 30 ∧ (31 : FramePos).toNat ≠ 30 := by decide

theorem witness_DutyComesFromTheStartingShiftRegister :
    gate 0 0x2F = true ∧ (at_ 30 0x2F).fc = some 30 ∧ (at_ 30 0x2F).sr = some 0x2F := by decide

theorem witness_TickRunsTheSelectedPolicyRow : (at_ 30 0x2F).fc = some 30 := rfl

/-- Both polarities. -/
theorem witness_RowsRunTheRowsTheySelect :
    (at_ 7 1).sr = some 1 ∧ (at_ 7 1).params.feedbackPolarity = .onOne ∧
    (atZero 7 1).sr = some 1 ∧ (atZero 7 1).params.feedbackPolarity = .onZero := by decide

theorem witness_AdvancingRowsStepTheLfsr : HoldsValues (at_ 31 1) ∧ (at_ 31 1).sr = some 1 := ⟨⟨rfl, rfl⟩, rfl⟩

/-- An open gate field and a closed one. -/
theorem witness_ConditionalRowsStepTheLfsrOnZeroGateField :
    HoldsValues (at_ 7 0x10) ∧ (at_ 7 0x10).sr = some 0x10 ∧ HoldsValues (at_ 7 8) ∧ (at_ 7 8).sr = some 8 :=
  ⟨⟨rfl, rfl⟩, rfl, ⟨rfl, rfl⟩, rfl⟩

theorem witness_IdleAndBlockingRowsChangeNothing : HoldsValues (at_ 5 0xDEADBEEF) := ⟨rfl, rfl⟩

theorem witness_LfsrRowsShift : HoldsValues (at_ 31 3) ∧ (at_ 31 3).sr = some 3 := ⟨⟨rfl, rfl⟩, rfl⟩

theorem witness_EmittingRowsWriteDuty : HoldsValues (at_ 30 8) ∧ (at_ 30 8).sr = some 8 := ⟨⟨rfl, rfl⟩, rfl⟩

/-- A command that faults, and states where each register lacks its value. -/
theorem witness_OnlyATickBeforeResetFaults :
    Instr.tick.format = .ifaceCmd ∧ exec .tick { at_ 5 1 with sr := none } = .fault .tickBeforeReset ∧
    exec .tick { at_ 5 1 with fc := none } = .fault .tickBeforeReset := ⟨rfl, rfl, rfl⟩

theorem witness_SelectedRowsStopWhereTheTickDoes : Instr.dutyFull.format ≠ .ifaceCmd := by decide

theorem witness_EveryOperationCompletesOnceReset : HoldsValues State.reset := ⟨rfl, rfl⟩

theorem witness_ShiftRegisterRowsFrame : exec .lfsrShift (at_ 31 2) = .next (noWrite (writeSr 1 (at_ 31 2))) := rfl

theorem witness_IdleRowsFrame : exec (.fpIdleL6 6) (at_ 5 2) = .next (noWrite (at_ 5 2)) := rfl

theorem witness_EmittingRowsFrame : exec .fpEmit (at_ 30 8) = .next (dutyWrite 0x8F (at_ 30 8)) := rfl

/-- A tick that writes nothing, its gate closed, beside a hold and a reset. -/
theorem witness_CommandsFrame :
    exec .tick (at_ 7 4) = .next (commitFc 8 (writeSr 4 (noWrite (at_ 7 4)))) ∧ gate 8 4 = false ∧
    (commitFc 8 (writeSr 4 (noWrite (at_ 7 4)))).fc ≠ some 31 ∧ exec .hold (at_ 7 4) = .next (noWrite (at_ 7 4)) ∧
    exec (.reset 0b10) (at_ 7 4) = .next (noWrite (commitFc 0 (writeSr 0 (at_ 7 4)))) :=
  ⟨rfl, rfl, by decide, rfl, rfl⟩

/-- For the statements about a step that answers a next state. -/
theorem witness_NoStepChangesTheParameters :
    step (fed [.command 0b01] (at_ 30 0)) = .next (countOp (commitFc 31 (writeSr 0 (dutyWrite 0x0F (at_ 30 0))))) := rfl

theorem witness_VariantPolarityIsTheOtherBranch :
    (2 : SrWord).getLsbD 0 = false ∧ (3 : SrWord).getLsbD 0 = true := by decide

/-- The first and the last bit. -/
theorem witness_LfsrStepBitByBit : (0 : Nat) < 32 ∧ (31 : Nat) < 32 := by decide

theorem witness_ShortLfsrCycles : (0 : Nat) < 14 ∧ (14 : Nat) < 15 := by decide

/-- The largest value of the set the inverse is for. -/
theorem witness_LfsrStepCollisionsAndInverse : (0x7FFFFFFF : SrWord).getLsbD 31 = false := by decide

theorem witness_DutyMapRange : (0x0F : Byte).toNat % 16 = 15 ∧ (0xEF : Byte).toNat % 16 = 15 ∧ (0xEF : Byte) ≠ 0xFF ∧
    (0xF : SrWord).getLsbD 4 = false := by decide

theorem witness_DutyMapReadsFiveBits :
    (0xFFFFFFE8 : SrWord).extractLsb' 0 5 = (8 : SrWord).extractLsb' 0 5 ∧ (0xFFFFFFE8 : SrWord).getLsbD 4 = false ∧
    (8 : SrWord).getLsbD 4 = false ∧ (0xFFFFFFE8 : SrWord).extractLsb' 0 4 = (8 : SrWord).extractLsb' 0 4 := by decide

theorem witness_DutyWriteIsAlwaysAWrite : (at_ 30 0).fc = some 30 ∧ (at_ 30 0).sr = some 0 := by decide

theorem witness_FrameCounterCycles : (at_ 20 0xDEADBEEF).fc = some 20 ∧ (at_ 20 0xDEADBEEF).sr = some 0xDEADBEEF := by
  decide

theorem witness_OneWriteAndOneToFourAdvancesPerFrame : (at_ 31 1).fc = some 31 ∧ (at_ 31 1).sr = some 1 := by decide

/-- An open gate field and a closed one. -/
theorem witness_FirstWriteAndFirstAdvanceAfterReset :
    (at_ 0 1).fc = some 0 ∧ (at_ 0 1).sr = some 1 ∧ (1 : SrWord) &&& 0xC = 0 ∧ (at_ 0 8).sr = some 8 ∧
    (8 : SrWord) &&& 0xC ≠ 0 := by decide

theorem witness_LowFrameCountersAreReachable : (0 : Nat) ≤ 7 ∧ (7 : Nat) ≤ 7 := by decide

/-- Two states that differ in everything the operations do not read. -/
theorem witness_OperationsDependOnRegistersAndParametersOnly :
    (at_ 5 1).fc = (fed [.powerCycle] { at_ 5 1 with duty := none, opIndex := 9 }).fc ∧
    (at_ 5 1).sr = (fed [.powerCycle] { at_ 5 1 with duty := none, opIndex := 9 }).sr ∧
    at_ 5 1 ≠ fed [.powerCycle] { at_ 5 1 with duty := none, opIndex := 9 } ∧ HoldsValues (at_ 5 1) :=
  ⟨rfl, rfl, by decide, ⟨rfl, rfl⟩⟩

/-- A tick and a reset that change `SR`. -/
theorem witness_NoOtherWriterOfTheShiftRegister :
    Instr.tick.format = .ifaceCmd ∧ exec .tick (at_ 31 2) = .next (commitFc 0 (writeSr 1 (noWrite (at_ 31 2)))) ∧
    (commitFc 0 (writeSr 1 (noWrite (at_ 31 2)))).sr ≠ (at_ 31 2).sr ∧ (Instr.reset 0b10).format = .ifaceCmd ∧
    exec (.reset 0b10) (at_ 31 2) = .next (noWrite (commitFc 0 (writeSr 0 (at_ 31 2)))) ∧
    (noWrite (commitFc 0 (writeSr 0 (at_ 31 2)))).sr ≠ (at_ 31 2).sr :=
  ⟨rfl, rfl, by decide, rfl, rfl, by decide⟩

/-- A step that changes `DUTY` by a write, and one by a power cycle. -/
theorem witness_DutyKeepsTheLastValueWritten :
    step (fed [.command 0b01] (at_ 30 0)) = .next (countOp (commitFc 31 (writeSr 0 (dutyWrite 0x0F (at_ 30 0))))) ∧
    (countOp (commitFc 31 (writeSr 0 (dutyWrite 0x0F (at_ 30 0))))).duty ≠ (fed [.command 0b01] (at_ 30 0)).duty ∧
    step (fed [.powerCycle] (at_ 30 0)) = .next (powerCycle (at_ 30 0)) ∧
    (powerCycle (at_ 30 0)).duty ≠ (fed [.powerCycle] (at_ 30 0)).duty :=
  ⟨rfl, by decide, rfl, by decide⟩

theorem witness_TopBitStaysClear : TopBitClear (fed [.command 0b01] (at_ 31 2)) ∧
    step (fed [.command 0b01] (at_ 31 2)) = .next (countOp (commitFc 0 (writeSr 1 (noWrite (at_ 31 2))))) :=
  ⟨⟨rfl, by intro x hx; cases hx; rfl⟩, rfl⟩

/-- A set bit 31 behind a closed gate, one position before 8. -/
theorem witness_TopBitNeverPassesAnOpenGate :
    TopBitOnlyBehindClosedGate (fed [.command 0b01] (at_ 7 0x80000004)) ∧
    step (fed [.command 0b01] (at_ 7 0x80000004)) =
      .next (countOp (commitFc 8 (writeSr 0x80000004 (noWrite (at_ 7 0x80000004))))) :=
  ⟨by intro fc x hf hx _; cases hf; cases hx; decide, rfl⟩

theorem witness_NormativeResetStateDoesNotFlicker :
    DoesNotFlicker (fed [.command 0b01] (at_ 30 0)) ∧
    step (fed [.command 0b01] (at_ 30 0)) = .next (countOp (commitFc 31 (writeSr 0 (dutyWrite 0x0F (at_ 30 0))))) ∧
    (24 : FramePos).toNat % 8 = 0 :=
  ⟨⟨rfl, rfl, by intro x hx; cases hx; rfl, nofun⟩, rfl, by decide⟩

theorem witness_StepKeepsTheObservationWellKept :
    ObservationWf (fed [.command 0b01] (at_ 30 0)) ∧
    step (fed [.command 0b01] (at_ 30 0)) = .next (countOp (commitFc 31 (writeSr 0 (dutyWrite 0x0F (at_ 30 0))))) :=
  ⟨⟨nofun, .nil, nofun⟩, rfl⟩

theorem witness_InvariantsHoldAtTheStart : Params.normative.srSeed.getLsbD 31 = false := by decide

/-- A stream that keeps the startup contract over a power cycle. -/
theorem witness_BootedRunsNeverStop :
    Booted (fed [.command 0b00, .command 0b10, .timerOverflow, .powerCycle, .command 0b11, .command 0b01]
      (State.powerOn Params.normative)) := by unfold Booted; decide

end Sys2Proof.Tests
end

section
/-!
PROOFS. Rule R34: which transitions keep the values of `FC` and `SR`, and what a power cycle does to them.
-/

namespace Sys2Proof.Machine

/-! ### The updates of the state keep the registers' values -/

section Updates

variable {s : State} (hs : HoldsValues s)
include hs

theorem holdsValues_writeSr (v : SrWord) : HoldsValues (writeSr v s) := ⟨hs.1, rfl⟩

theorem holdsValues_commitFc (v : FramePos) : HoldsValues (commitFc v s) := ⟨rfl, hs.2⟩

theorem holdsValues_noWrite : HoldsValues (noWrite s) := hs

theorem holdsValues_dutyWrite (v : Byte) : HoldsValues (dutyWrite v s) := hs

theorem holdsValues_emit (fc1 : FramePos) (s1 : SrWord) : HoldsValues (emit fc1 s1 s) := by
  unfold emit
  split
  · exact holdsValues_dutyWrite hs _
  · exact holdsValues_noWrite hs

end Updates

/-! ### The operations keep the registers' values -/

/-- A tick's action keeps the registers' values when its body ends in a state that holds them. -/
theorem inTick_next_holdsValues {s t : State} {body : FramePos → SrWord → State} (h : inTick s body = .next t)
    (hbody : ∀ fc sr, HoldsValues (body fc sr)) : HoldsValues t := by
  obtain ⟨fc, sr, -, -, rfl⟩ := inTick_next h
  exact hbody fc sr

theorem execTick_next_holdsValues {s t : State} (hs : HoldsValues s) (h : execTick s = .next t) : HoldsValues t :=
  inTick_next_holdsValues h fun _ _ => holdsValues_commitFc (holdsValues_writeSr (holdsValues_emit hs _ _) _) _

theorem advance_next_holdsValues {s t : State} (hs : HoldsValues s) (h : advance s = .next t) : HoldsValues t :=
  inTick_next_holdsValues h fun _ _ => holdsValues_noWrite (holdsValues_writeSr hs _)

theorem stay_next_holdsValues {s t : State} (hs : HoldsValues s) (h : stay s = .next t) : HoldsValues t :=
  inTick_next_holdsValues h fun _ _ => holdsValues_noWrite hs

theorem advanceIf_next_holdsValues {s t : State} (hs : HoldsValues s) (h : advanceIf s = .next t) :
    HoldsValues t := by
  refine inTick_next_holdsValues h fun _ sr => ?_
  split
  · exact holdsValues_noWrite (holdsValues_writeSr hs _)
  · exact holdsValues_noWrite hs

/-- A `RESET` gives both registers values, from any state (rule R160). -/
theorem exec_reset_holdsValues (cmd : CmdWord) (s : State) :
    ∃ t, exec (.reset cmd) s = .next t ∧ HoldsValues t :=
  ⟨_, exec_reset s cmd, rfl, rfl⟩

/-- An operation that completes keeps the registers' values. -/
theorem exec_next_holdsValues {i : Instr} {s t : State} (hs : HoldsValues s) (h : exec i s = .next t) :
    HoldsValues t := by
  cases i with
  | hold =>
    rw [exec_hold] at h
    cases h
    exact holdsValues_noWrite hs
  | reset cmd =>
    obtain ⟨u, hu, hvalues⟩ := exec_reset_holdsValues cmd s
    rw [hu] at h
    cases h
    exact hvalues
  | tick => exact execTick_next_holdsValues hs h
  | fpAdvance | gatePass => exact advance_next_holdsValues hs h
  | fpAdvanceIf08 | fpAdvanceIf16 | fpAdvanceIf24 => exact advanceIf_next_holdsValues hs h
  | fpIdleL1 | fpIdleL2 | fpIdleL3 | fpIdleL4 | fpIdleL5 | fpIdleL6 | fpIdle07 | fpIdle15 | fpIdle23
  | gateBlockB2 | gateBlockB3 => exact stay_next_holdsValues hs h
  | lfsrShift | lfsrShiftXor =>
    exact inTick_next_holdsValues h fun _ _ => holdsValues_noWrite (holdsValues_writeSr hs _)
  | fpEmit | dutyFull | dutyNibble => exact inTick_next_holdsValues h fun _ _ => holdsValues_dutyWrite hs _

/-! ### The step at a power cycle -/

theorem step_powerCycle {s : State} {rest : List Event} (h : s.pending = .powerCycle :: rest) :
    step s = .next (powerCycle { s with pending := rest }) :=
  step_of_power (takeEvent_powerCycle h)

/-- A `TICK` faults where either register holds no value (rule R142). -/
theorem exec_tick_fault_iff {s : State} :
    exec .tick s = .fault .tickBeforeReset ↔ s.fc = none ∨ s.sr = none :=
  inTick_fault_iff

/-! ### The obligation -/

/-- Settles O11: every operation keeps the registers' values, case by case over the rows; the power-cycle step leaves
`powerCycle` of the state, which has none for a tick to read and all a reset needs. -/
theorem onlyAPowerCycleLosesTheRegisters : Obligations.OnlyAPowerCycleLosesTheRegisters := by
  unfold Obligations.OnlyAPowerCycleLosesTheRegisters
  constructor
  · intro i s t hs h
    exact exec_next_holdsValues hs h
  · intro s rest h
    exact ⟨_, step_powerCycle h, powerCycle_fc _, powerCycle_sr _, powerCycle_pending _,
      exec_tick_fault_iff.2 (.inl (powerCycle_fc _)), fun cmd => exec_reset_holdsValues cmd _⟩

end Sys2Proof.Machine
end

section
/-!
PROOFS. Rules R61 and R66: the decode of a command is total and independent of the state, no command is refused, and
every frame position lies in a row of the frame-policy table.
-/

namespace Sys2Proof.Machine

/-! ### The decode of a command -/

/-- A command always fits its field, so the byte decoder never rejects it. -/
theorem decode_ifaceCmd_setWidth (cmd : CmdWord) :
    decode .ifaceCmd (cmd.setWidth 8) = .instr (decodeCommand cmd) := by
  have hfits : (cmd.setWidth 8).toNat < 2 ^ Format.ifaceCmd.width := by
    rw [BitVec.toNat_setWidth_of_le (by decide)]
    exact cmd.isLt
  rw [decode, if_pos hfits, BitVec.setWidth_setWidth_of_le _ (by decide), BitVec.setWidth_eq]

theorem decodeCommand_format (cmd : CmdWord) : (decodeCommand cmd).format = .ifaceCmd := by
  obtain h | h | h := decodeCommand_cases cmd <;> rw [h] <;> rfl

/-- The two words of `RESET` (rule R66). -/
theorem decodeCommand_reset_words :
    decodeCommand 0b10 = .reset 0b10 ∧ decodeCommand 0b11 = .reset 0b11 := ⟨rfl, rfl⟩

/-- The step at a delivered command runs the operation the command decodes to. -/
theorem step_command {s : State} {cmd : CmdWord} {rest : List Event} (h : s.pending = .command cmd :: rest) :
    step s = finishOp (exec (decodeCommand cmd) { s with pending := rest }) :=
  step_of_command (takeEvent_command h)

/-! ### What is never refused, and what is never outside the table -/

/-- No operation is refused: `HOLD` and `RESET` complete, and the entry of a tick can only complete or fault. -/
theorem exec_not_refused (i : Instr) (s : State) (r : Refusal) : exec i s ≠ .refused r := by
  obtain rfl | ⟨cmd, rfl⟩ | ⟨-, -, body, hbody⟩ := exec_shape s i
  · exact nofun
  · exact nofun
  · rw [hbody]
    exact inTick_not_refused

/-- A frame position lies in the table's row of the operation it decodes to (rule R63), checked at the 32 positions. -/
theorem decodePolicy_row_mem_rowsHit :
    ∀ pos : FramePos, (decodePolicy pos).row ∈ rowsHit .framePolicy (pos.setWidth 8) := by
  decide

/-! ### The obligations -/

/-- Settles O5: the operation is what `decodeCommand` gives, unique because `decode` is a function, and the step reads
nothing of the state to find it. -/
theorem eachCommandSelectsOneOperation : Obligations.EachCommandSelectsOneOperation := by
  unfold Obligations.EachCommandSelectsOneOperation
  intro cmd
  refine ⟨decodeCommand cmd, ⟨decodeCommand_format cmd, decode_ifaceCmd_setWidth cmd, fun _ _ => step_command⟩, ?_⟩
  rintro i ⟨-, hdecode, -⟩
  rw [decode_ifaceCmd_setWidth] at hdecode
  exact (Decoded.instr.inj hdecode).symm

/-- Settles O6: no operation is refused at all, both words of `RESET` run `execReset`, and each frame position lies in
the row of the operation it decodes to. -/
theorem noCommandIsReservedAndResetWinsOverTick : Obligations.NoCommandIsReservedAndResetWinsOverTick := by
  unfold Obligations.NoCommandIsReservedAndResetWinsOverTick
  obtain ⟨h10, h11⟩ := decodeCommand_reset_words
  refine ⟨fun cmd => ?decoded, fun s => ?reset, fun s => ?sameReset, fun pos => ?row, fun pos => ?bound⟩
  case decoded => exact ⟨decodeCommand cmd, decode_ifaceCmd_setWidth cmd, exec_not_refused _⟩
  case reset =>
    rw [h11, exec_reset]
    rfl
  case sameReset => rw [h11, h10, exec_reset, exec_reset]
  case row => exact List.ne_nil_of_mem (decodePolicy_row_mem_rowsHit pos)
  case bound => exact Nat.le_of_lt_succ pos.isLt

end Sys2Proof.Machine
end

section
/-!
PROOFS. Rules R80 to R84: the counter, the gate and the duty write of one `TICK`. The laws of the functions a tick calls
come first, then the two shapes of a completed tick, then the statements about one tick.
-/

namespace Sys2Proof.Machine

open Sys2Proof.Config

/-! ### One bit of a word -/

theorem extractLsb'_one_eq_one_iff (x : SrWord) (k : Nat) : x.extractLsb' k 1 = 1#1 ↔ x.getLsbD k = true := by
  simp [BitVec.eq_of_getLsbD_eq_iff]

theorem extractLsb'_one_eq_zero_iff (x : SrWord) (k : Nat) : x.extractLsb' k 1 = 0#1 ↔ x.getLsbD k = false := by
  simp [BitVec.eq_of_getLsbD_eq_iff]

/-! ### The counter -/

theorem inc5_eq_ofNat (fc : FramePos) : inc5 fc = BitVec.ofNat 5 (fc.toNat + 1) := by
  apply BitVec.eq_of_toNat_eq
  rw [inc5_toNat, BitVec.toNat_ofNat]

/-- Only position 30 is followed by the emit position. -/
theorem inc5_eq_emitPos_iff (fc : FramePos) : inc5 fc = emitPos ↔ fc.toNat = 30 := by
  rw [← BitVec.toNat_inj, inc5_toNat]
  have hemit : emitPos.toNat = 31 := rfl
  omega

/-! ### The gate -/

theorem gateField_eq_zero_iff (x : SrWord) : gateField x = 0b00#2 ↔ x.getLsbD 2 = false ∧ x.getLsbD 3 = false := by
  rw [gateField, BitVec.eq_of_getLsbD_eq_iff]
  constructor
  · intro h
    exact ⟨by simpa using h 0 (by decide), by simpa using h 1 (by decide)⟩
  · rintro ⟨h2, h3⟩ i hi
    obtain rfl | rfl : i = 0 ∨ i = 1 := by omega
    · simpa using h2
    · simpa using h3

/-- The mask of rule R82 picks the gate field. -/
theorem and_gateFieldMask_eq_zero_iff (x : SrWord) :
    x &&& 0x0000000C#32 = 0#32 ↔ x.getLsbD 2 = false ∧ x.getLsbD 3 = false := by
  have hmask : ∀ i < 32, (0x0000000C#32).getLsbD i = decide (i = 2 ∨ i = 3) := by decide
  constructor
  · intro h
    have hbit : ∀ i, (x &&& 0x0000000C#32).getLsbD i = false := by simp [h]
    exact ⟨by simpa using hbit 2, by simpa using hbit 3⟩
  · rintro ⟨h2, h3⟩
    apply BitVec.eq_of_getLsbD_eq
    intro i hi
    rw [BitVec.getLsbD_and, hmask i hi, BitVec.getLsbD_zero]
    by_cases hi' : i = 2 ∨ i = 3
    · obtain rfl | rfl := hi'
      · simpa using h2
      · simpa using h3
    · simp [hi']

/-- The position mask of rule R82 tests for a multiple of 8. -/
theorem and_gateMask_eq_zero_iff : ∀ fc1 : FramePos, fc1 &&& gateMask = 0#5 ↔ fc1.toNat % 8 = 0 := by
  decide

/-- Rule R82 in one line: the gate is open at position 0, and at 8, 16 and 24 where bits 2 and 3 are both zero. -/
theorem gate_eq_true_iff (fc1 : FramePos) (x : SrWord) :
    gate fc1 x = true ↔
      fc1.toNat = 0 ∨ (fc1.toNat % 8 = 0 ∧ x.getLsbD 2 = false ∧ x.getLsbD 3 = false) := by
  have hzero : fc1 = 0#5 ↔ fc1.toNat = 0 := by simp [← BitVec.toNat_inj]
  unfold gate
  split
  · next h => simp [hzero.1 h]
  · next h =>
    rw [hzero] at h
    split
    · next hmask =>
      rw [ne_eq, and_gateMask_eq_zero_iff] at hmask
      simp [h, hmask]
    · next hmask =>
      rw [not_not, and_gateMask_eq_zero_iff] at hmask
      simp [h, hmask, gateField_eq_zero_iff]

theorem gate_eq_false_of_mod_ne_zero {fc1 : FramePos} (h : fc1.toNat % 8 ≠ 0) (x : SrWord) : gate fc1 x = false := by
  rw [← Bool.not_eq_true, gate_eq_true_iff]
  omega

/-- With a gate field that is not zero the gate is closed everywhere but at position 0. -/
theorem gate_eq_false_of_blocked {fc1 : FramePos} {x : SrWord} (hx : x &&& 0x0000000C#32 ≠ 0#32)
    (h : fc1.toNat ≠ 0) : gate fc1 x = false := by
  rw [ne_eq, and_gateFieldMask_eq_zero_iff] at hx
  rw [← Bool.not_eq_true, gate_eq_true_iff]
  tauto

/-! ### The LFSR step and the duty value -/

theorem applyFeedback_eq (pol : FeedbackPolarity) (x : SrWord) :
    applyFeedback pol x = match pol with | .onOne => x.getLsbD 0 | .onZero => !x.getLsbD 0 := by
  cases pol with
  | onOne => exact applyFeedback_onOne x
  | onZero => 
    rw [applyFeedback, Bool.eq_iff_iff, beq_iff_eq, b0, extractLsb'_one_eq_zero_iff, Bool.not_eq_true']

theorem dimValue_toNat : ∀ n : BitVec 4, (dimValue n).toNat = n.toNat * 16 + 15 := by
  decide

/-- Rules R120 to R122 in arithmetic form. -/
theorem dutyMap_toNat (x : SrWord) :
    (dutyMap x).toNat = if x.getLsbD 4 then 255 else x.toNat % 16 * 16 + 15 := by
  have hnibble : (nibble x).toNat = x.toNat % 16 := by simp [nibble, BitVec.extractLsb'_toNat]
  simp only [dutyMap, dutySel, extractLsb'_one_eq_one_iff]
  split
  · rfl
  · rw [dimValue_toNat, hnibble]

/-! ### The two shapes of a completed tick -/

/-- `SR` after the advance, if any, of the tick that starts at `fc` and `x` (steps 2 and 3 of rule R80). -/
def srAfterTick (pol : FeedbackPolarity) (fc : FramePos) (x : SrWord) : SrWord :=
  if gate (inc5 fc) x then lfsrStep pol x else x

section Tick

variable {s : State} {fc : FramePos} {x : SrWord} (hf : s.fc = some fc) (hx : s.sr = some x)
include hf hx

theorem exec_tick_of_values :
    exec .tick s = .next (commitFc (inc5 fc) (writeSr (srAfterTick s.params.feedbackPolarity fc x)
      (emit (inc5 fc) (srAfterTick s.params.feedbackPolarity fc x) s))) :=
  inTick_of_values hf hx _

/-- The tick that lands on position 31 writes the duty register. -/
theorem exec_tick_of_eq_30 (h : fc.toNat = 30) :
    exec .tick s = .next (commitFc 31#5 (writeSr (srAfterTick s.params.feedbackPolarity fc x)
      (dutyWrite (dutyMap (srAfterTick s.params.feedbackPolarity fc x)) s))) := by
  rw [exec_tick_of_values hf hx, (inc5_eq_emitPos_iff fc).2 h, emit_emitPos]
  rfl

/-- Any other tick writes nothing. -/
theorem exec_tick_of_ne_30 (h : fc.toNat ≠ 30) :
    exec .tick s = .next (commitFc (inc5 fc) (writeSr (srAfterTick s.params.feedbackPolarity fc x) (noWrite s))) := by
  rw [exec_tick_of_values hf hx, emit_of_ne (mt (inc5_eq_emitPos_iff fc).1 h)]

end Tick

/-! ### The obligations -/

/-- Settles O16: the values are the model's own `gate`, `applyFeedback`, `srAfterTick` and `dutyMap`, each given by
its law, and the tick has the shape of its position. -/
theorem tickIsTheFiveSteps : Obligations.TickIsTheFiveSteps := by
  unfold Obligations.TickIsTheFiveSteps
  intro s fc x hf hx
  refine ⟨gate (inc5 fc) x, applyFeedback s.params.feedbackPolarity x, srAfterTick s.params.feedbackPolarity fc x,
    dutyMap (srAfterTick s.params.feedbackPolarity fc x), ?gate, applyFeedback_eq _ x, rfl, dutyMap_toNat _, ?next⟩
  case gate =>
    have hlt : fc.toNat < 32 := fc.isLt
    have hzero : (fc.toNat + 1) % 32 = 0 ↔ fc.toNat = 31 := by omega
    have height : (fc.toNat + 1) % 32 % 8 = 0 ↔ fc.toNat = 31 ∨ fc.toNat = 7 ∨ fc.toNat = 15 ∨ fc.toNat = 23 := by
      omega
    rw [gate_eq_true_iff, inc5_toNat, hzero, height]
    tauto
  case next =>
    split
    · next h => exact exec_tick_of_eq_30 hf hx h
    · next h =>
      rw [exec_tick_of_ne_30 hf hx h, inc5_eq_ofNat]
      rfl

/-- Settles O17: the commit puts `Inc5` of the old counter into `FC` whatever the gate and the emit did. -/
theorem everyTickIncrementsTheFrameCounter : Obligations.EveryTickIncrementsTheFrameCounter := by
  unfold Obligations.EveryTickIncrementsTheFrameCounter
  refine ⟨inc5_toNat, fun s fc x hf hx => ⟨_, exec_tick_of_values hf hx, ?_⟩⟩
  rw [commitFc_fc, inc5_eq_ofNat]
  split
  · next h => rw [h]; rfl
  · rfl

/-- Settles O18: each clause is read off `gate_eq_true_iff`. -/
theorem gateFollowsTheFramePolicy : Obligations.GateFollowsTheFramePolicy := by
  unfold Obligations.GateFollowsTheFramePolicy
  intro fc1 x
  refine ⟨fun h => (gate_eq_true_iff fc1 x).2 (.inl h), fun h => gate_eq_false_of_mod_ne_zero h x, fun h => ?_,
    fun y h2 h3 => ?_⟩
  · have hgate : gate fc1 x = true ↔ x.getLsbD 2 = false ∧ x.getLsbD 3 = false := by
      have hne : fc1.toNat ≠ 0 := by omega
      have hmod : fc1.toNat % 8 = 0 := by omega
      simp only [gate_eq_true_iff, hne, hmod, false_or, true_and]
    exact ⟨hgate.trans (and_gateFieldMask_eq_zero_iff x).symm, hgate.trans And.comm⟩
  · rw [Bool.eq_iff_iff, gate_eq_true_iff, gate_eq_true_iff, h2, h3]

/-- Settles O19: the tick leaves `srAfterTick` in `SR`, which is the gate's choice. -/
theorem tickAdvancesIffTheGateIsOpen : Obligations.TickAdvancesIffTheGateIsOpen := by
  unfold Obligations.TickAdvancesIffTheGateIsOpen
  intro s fc x hf hx
  refine ⟨_, exec_tick_of_values hf hx, fun hopen => ?_, fun hclosed => ?_⟩
  · rw [commitFc_sr, writeSr_sr, srAfterTick, if_pos hopen]
  · rw [commitFc_sr, writeSr_sr, srAfterTick, hclosed]
    rfl

/-- Settles O20, by the two shapes of a tick. -/
theorem tickWritesDutyOnlyAtPosition31 : Obligations.TickWritesDutyOnlyAtPosition31 := by
  unfold Obligations.TickWritesDutyOnlyAtPosition31
  intro s fc x hf hx
  by_cases h : fc.toNat = 30
  · exact ⟨_, _, exec_tick_of_eq_30 hf hx h, rfl, fun _ => ⟨rfl, rfl, rfl⟩, fun hne => absurd h hne⟩
  · exact ⟨_, _, exec_tick_of_ne_30 hf hx h, rfl, fun heq => absurd heq h, fun _ => ⟨rfl, rfl, rfl⟩⟩

end Sys2Proof.Machine
end

section
/-!
PROOFS. Rules R86, R88 and R90: runs of holds and of ticks. A run of ticks from a state whose registers hold values is the
iterate of one function on states, `tickOnce`, so facts about runs are inductions on that iterate.
-/

namespace Sys2Proof.Machine

open Sys2Proof.Config

/-! ### Runs -/

/-- A machine's run goes on from where its first step ends. -/
theorem coreRun_succ_of_step {M : Host.Core} {s t : M.State} (h : M.step s = .next t) (n : Nat) :
    M.run (n + 1) s = M.run n t := by
  rw [Host.Core.run, h]

/-- The same for this machine's own step. -/
theorem run_succ_of_step {s t : State} (h : step s = .next t) (n : Nat) :
    Sys2Proof.core.run (n + 1) s = Sys2Proof.core.run n t :=
  coreRun_succ_of_step (M := Sys2Proof.core) h n

theorem step_hold {s : State} {rest : List Event} (h : s.pending = .command 0b00 :: rest) :
    step s = .next (countOp (noWrite { s with pending := rest })) :=
  step_command h

/-! ### One counted tick -/

/-- The state after one `TICK`, counted (rule R48); a state in which the tick stops stays as it is. -/
def tickOnce (s : State) : State :=
  match execTick s with
  | .next t => countOp t
  | _ => s

theorem emit_withTicks (n : Nat) (fc1 : FramePos) (x1 : SrWord) (s : State) :
    emit fc1 x1 (withTicks n s) = withTicks n (emit fc1 x1 s) := by
  unfold emit
  split <;> rfl

@[simp] theorem emit_params (fc1 : FramePos) (x1 : SrWord) (s : State) : (emit fc1 x1 s).params = s.params := by
  unfold emit
  split <;> rfl

section Tick

variable {s : State} {fc : FramePos} {x : SrWord} (hf : s.fc = some fc) (hx : s.sr = some x)
include hf hx

theorem tickOnce_of_values :
    tickOnce s = countOp (commitFc (inc5 fc) (writeSr (srAfterTick s.params.feedbackPolarity fc x)
      (emit (inc5 fc) (srAfterTick s.params.feedbackPolarity fc x) s))) := by
  rw [tickOnce, ← exec_tick, exec_tick_of_values hf hx]

theorem tickOnce_fc : (tickOnce s).fc = some (inc5 fc) := by
  rw [tickOnce_of_values hf hx, countOp_fc, commitFc_fc]

theorem tickOnce_sr : (tickOnce s).sr = some (srAfterTick s.params.feedbackPolarity fc x) := by
  rw [tickOnce_of_values hf hx, countOp_sr, commitFc_sr, writeSr_sr]

theorem tickOnce_params : (tickOnce s).params = s.params := by
  rw [tickOnce_of_values hf hx]
  exact emit_params ..

theorem tickOnce_writes_length :
    (tickOnce s).writes.length = s.writes.length + if fc.toNat = 30 then 1 else 0 := by
  rw [tickOnce, ← exec_tick]
  split_ifs with h
  · rw [exec_tick_of_eq_30 hf hx h]
    simp
  · rw [exec_tick_of_ne_30 hf hx h]
    simp

/-- The first of the delivered ticks is taken, and the others stay delivered. -/
theorem step_withTicks_succ (n : Nat) : step (withTicks (n + 1) s) = .next (withTicks n (tickOnce s)) := by
  have hpending : (withTicks (n + 1) s).pending = .command 0b01 :: (withTicks n s).pending := rfl
  have htick : exec .tick (withTicks n s) = _ := exec_tick_of_values (s := withTicks n s) hf hx
  rw [emit_withTicks] at htick
  rw [step_command hpending, tickOnce_of_values hf hx]
  exact congrArg finishOp htick

end Tick

/-! ### Runs of ticks -/

/-- A run of ticks completes, in the iterate of one tick. -/
theorem runTicks_eq_iterate (n : Nat) {s : State} {fc : FramePos} {x : SrWord} (hf : s.fc = some fc)
    (hx : s.sr = some x) : runTicks n s = .next (tickOnce^[n] s) := by
  unfold runTicks
  induction n generalizing s fc x with
  | zero => rfl
  | succ n ih =>
    rw [run_succ_of_step (step_withTicks_succ hf hx n), Function.iterate_succ_apply]
    exact ih (tickOnce_fc hf hx) (tickOnce_sr hf hx)

section Iterate

variable {s : State} {fc : FramePos} {x : SrWord} (hf : s.fc = some fc) (hx : s.sr = some x)
include hf hx

/-- Ticks keep both registers' values and the parameters, and the counter counts them. -/
theorem iterate_tickOnce_registers (n : Nat) :
    (tickOnce^[n] s).fc = some (fc + BitVec.ofNat 5 n) ∧ (∃ y, (tickOnce^[n] s).sr = some y) ∧
      (tickOnce^[n] s).params = s.params := by
  induction n with
  | zero => exact ⟨by simpa using hf, ⟨x, hx⟩, rfl⟩
  | succ n ih =>
    obtain ⟨hfc, ⟨y, hy⟩, hparams⟩ := ih
    rw [Function.iterate_succ_apply']
    refine ⟨?_, ⟨_, tickOnce_sr hfc hy⟩, (tickOnce_params hfc hy).trans hparams⟩
    rw [tickOnce_fc hfc hy, inc5, BitVec.add_assoc, BitVec.ofNat_add]

theorem iterate_tickOnce_fc (n : Nat) : (tickOnce^[n] s).fc = some (fc + BitVec.ofNat 5 n) :=
  (iterate_tickOnce_registers hf hx n).1

/-- The gate's choice at the tick after `n` ticks that left `SR` as it was. -/
theorem iterate_tickOnce_succ_sr {n : Nat} (hn : (tickOnce^[n] s).sr = some x) :
    (tickOnce^[n + 1] s).sr =
      some (if gate (fc + BitVec.ofNat 5 (n + 1)) x then lfsrStep s.params.feedbackPolarity x else x) := by
  obtain ⟨hfc, -, hparams⟩ := iterate_tickOnce_registers hf hx n
  rw [Function.iterate_succ_apply', tickOnce_sr hfc hn, hparams, srAfterTick, inc5, BitVec.add_assoc,
    ← BitVec.ofNat_add]

/-- While the ticks land on closed gates, `SR` stays as it was. -/
theorem iterate_tickOnce_sr_of_closed {n : Nat}
    (hclosed : ∀ k < n, gate (fc + BitVec.ofNat 5 (k + 1)) x = false) : (tickOnce^[n] s).sr = some x := by
  induction n with
  | zero => exact hx
  | succ n ih =>
    rw [iterate_tickOnce_succ_sr hf hx (ih fun k hk => hclosed k (by omega)), hclosed n (by omega)]
    rfl

/-- The first open gate advances `SR` once. -/
theorem iterate_tickOnce_succ_sr_of_open {n : Nat}
    (hclosed : ∀ k < n, gate (fc + BitVec.ofNat 5 (k + 1)) x = false)
    (hopen : gate (fc + BitVec.ofNat 5 (n + 1)) x = true) :
    (tickOnce^[n + 1] s).sr = some (lfsrStep s.params.feedbackPolarity x) := by
  rw [iterate_tickOnce_succ_sr hf hx (iterate_tickOnce_sr_of_closed hf hx hclosed), if_pos hopen]

/-- One write for every time the counter lands on 31. -/
theorem iterate_tickOnce_writes_length (n : Nat) :
    (tickOnce^[n] s).writes.length + (fc.toNat + 1) / 32 = s.writes.length + (fc.toNat + n + 1) / 32 := by
  induction n with
  | zero => rfl
  | succ n ih =>
    obtain ⟨hfc, ⟨y, hy⟩, -⟩ := iterate_tickOnce_registers hf hx n
    rw [Function.iterate_succ_apply', tickOnce_writes_length hfc hy, BitVec.toNat_add, BitVec.toNat_ofNat]
    split_ifs <;> omega

end Iterate

/-! ### The obligations -/

/-- Settles O13, by induction on the number of holds. -/
theorem holdChangesNothing : Obligations.HoldChangesNothing := by
  unfold Obligations.HoldChangesNothing
  refine ⟨rfl, exec_hold, fun n => ?_⟩
  induction n with
  | zero => exact fun s rest h => ⟨s, rfl, rfl, rfl, rfl, rfl, rfl, h⟩
  | succ n ih =>
    intro s rest h
    rw [run_succ_of_step (step_hold h)]
    exact ih (countOp (noWrite { s with pending := List.replicate n (.command 0b00) ++ rest })) rest rfl

/-- Settles O48: after `n` ticks the counter is the old one plus `n`, in 5 bits. -/
theorem frameCounterCycles : Obligations.FrameCounterCycles := by
  unfold Obligations.FrameCounterCycles
  intro s fc x hf hx n
  have hfc := iterate_tickOnce_fc hf hx n
  have hnat : (fc + BitVec.ofNat 5 n).toNat = (fc.toNat + n) % 32 := by simp
  refine ⟨_, _, runTicks_eq_iterate n hf hx, hfc, hnat, by omega, ?_⟩
  have hlt : fc.toNat < 32 := fc.isLt
  rw [hfc, hf, Option.some_inj, ← BitVec.toNat_inj, hnat]
  omega

/-- Settles O50: from position 0 tick `n` lands on `n`, so the ticks up to the 7th, and with a blocking gate field up to
the 31st, land on closed gates, and the next one on an open gate. -/
theorem firstWriteAndFirstAdvanceAfterReset : Obligations.FirstWriteAndFirstAdvanceAfterReset := by
  unfold Obligations.FirstWriteAndFirstAdvanceAfterReset
  intro s x hf hx n
  have hpos : ∀ k, (0#5 + BitVec.ofNat 5 (k + 1)).toNat = (k + 1) % 32 := by simp
  have hlow : ∀ k < 7, gate (0#5 + BitVec.ofNat 5 (k + 1)) x = false := fun k hk =>
    gate_eq_false_of_mod_ne_zero (by rw [hpos]; omega) x
  have hblocked : x &&& 0x0000000C#32 ≠ 0#32 → ∀ k < 31, gate (0#5 + BitVec.ofNat 5 (k + 1)) x = false :=
    fun hne k hk => gate_eq_false_of_blocked hne (by rw [hpos]; omega)
  refine ⟨_, runTicks_eq_iterate n hf hx, ?writes, ?seventh, ?eighth, ?last, ?frame⟩
  case writes => simpa using iterate_tickOnce_writes_length hf hx n
  case seventh => exact fun hn => iterate_tickOnce_sr_of_closed hf hx fun k hk => hlow k (by omega)
  case eighth =>
    rintro hzero rfl
    have hopen : gate (0#5 + BitVec.ofNat 5 (7 + 1)) x = true :=
      (gate_eq_true_iff _ x).2 (.inr ⟨rfl, (and_gateFieldMask_eq_zero_iff x).1 hzero⟩)
    exact iterate_tickOnce_succ_sr_of_open hf hx hlow hopen
  case last =>
    exact fun hne hn => iterate_tickOnce_sr_of_closed hf hx fun k hk => hblocked hne k (by omega)
  case frame =>
    rintro hne rfl
    exact iterate_tickOnce_succ_sr_of_open hf hx (hblocked hne) (gate_frame_start x)

end Sys2Proof.Machine
end

section
/-!
PROOFS. Rule R92: two states that agree on `FC`, `SR` and the two parameters the rules read go through every operation
alike.
-/

namespace Sys2Proof.Machine

open Sys2Proof.Config

/-! ### Agreement of two states, and of two outcomes -/

/-- Two states agree on the registers. -/
def SameRegisters (s u : State) : Prop := s.fc = u.fc ∧ s.sr = u.sr

/-- Two states agree on the registers and on the port. -/
def SameOutputs (s u : State) : Prop := s.fc = u.fc ∧ s.sr = u.sr ∧ s.dutyPort = u.dutyPort

/-- Two outcomes agree: both are the tick's fault, or both complete, with equal registers and port. -/
def SameOutcomes (o p : Host.Outcome State Fault Refusal) : Prop :=
  (o = .fault .tickBeforeReset ∧ p = .fault .tickBeforeReset) ∨
  ∃ t v, o = .next t ∧ p = .next v ∧ SameOutputs t v

/-! ### The updates keep the agreement -/

theorem sameRegisters_writeSr {s u : State} (h : SameRegisters s u) (v : SrWord) :
    SameRegisters (writeSr v s) (writeSr v u) := ⟨h.1, rfl⟩

theorem sameOutputs_writeSr {s u : State} (h : SameOutputs s u) (v : SrWord) :
    SameOutputs (writeSr v s) (writeSr v u) := ⟨h.1, rfl, h.2.2⟩

theorem sameOutputs_commitFc {s u : State} (h : SameOutputs s u) (v : FramePos) :
    SameOutputs (commitFc v s) (commitFc v u) := ⟨rfl, h.2⟩

theorem sameOutputs_noWrite {s u : State} (h : SameRegisters s u) : SameOutputs (noWrite s) (noWrite u) :=
  ⟨h.1, h.2, rfl⟩

theorem sameOutputs_dutyWrite {s u : State} (h : SameRegisters s u) (v : Byte) :
    SameOutputs (dutyWrite v s) (dutyWrite v u) := ⟨h.1, h.2, rfl⟩

theorem sameOutputs_emit {s u : State} (h : SameRegisters s u) (fc1 : FramePos) (x1 : SrWord) :
    SameOutputs (emit fc1 x1 s) (emit fc1 x1 u) := by
  unfold emit
  split
  · exact sameOutputs_dutyWrite h _
  · exact sameOutputs_noWrite h

/-! ### The operations keep the agreement -/

section Operations

variable {s u : State} (h : SameRegisters s u)
include h

/-- The entry of a tick stops in both states or in neither, so the bodies decide. -/
theorem inTick_sameOutcomes {body body' : FramePos → SrWord → State}
    (hbody : ∀ fc sr, SameOutputs (body fc sr) (body' fc sr)) : SameOutcomes (inTick s body) (inTick u body') := by
  obtain ⟨hfc, hsr⟩ := h
  cases hf : u.fc with
  | none => exact .inl ⟨inTick_fault_iff.2 (.inl (hfc.trans hf)), inTick_fault_iff.2 (.inl hf)⟩
  | some fc =>
    cases hx : u.sr with
    | none => exact .inl ⟨inTick_fault_iff.2 (.inr (hsr.trans hx)), inTick_fault_iff.2 (.inr hx)⟩
    | some sr =>
      exact .inr ⟨_, _, inTick_of_values (hfc.trans hf) (hsr.trans hx) body, inTick_of_values hf hx body', hbody fc sr⟩

theorem stay_sameOutcomes : SameOutcomes (stay s) (stay u) :=
  inTick_sameOutcomes h fun _ _ => sameOutputs_noWrite h

section Polarity

variable (hpol : s.params.feedbackPolarity = u.params.feedbackPolarity)
include hpol

theorem execTick_sameOutcomes : SameOutcomes (execTick s) (execTick u) := by
  unfold execTick
  rw [hpol]
  exact inTick_sameOutcomes h fun _ _ => sameOutputs_commitFc (sameOutputs_writeSr (sameOutputs_emit h _ _) _) _

theorem advance_sameOutcomes : SameOutcomes (advance s) (advance u) := by
  unfold advance
  rw [hpol]
  exact inTick_sameOutcomes h fun _ _ => sameOutputs_noWrite (sameRegisters_writeSr h _)

theorem advanceIf_sameOutcomes : SameOutcomes (advanceIf s) (advanceIf u) := by
  unfold advanceIf
  rw [hpol]
  refine inTick_sameOutcomes h fun _ sr => ?_
  split
  · exact sameOutputs_noWrite (sameRegisters_writeSr h _)
  · exact sameOutputs_noWrite h

/-- Every operation goes alike through two states that agree on what it reads. -/
theorem exec_sameOutcomes (hseed : s.params.srSeed = u.params.srSeed) (i : Instr) :
    SameOutcomes (exec i s) (exec i u) := by
  cases i with
  | hold => exact .inr ⟨_, _, exec_hold s, exec_hold u, sameOutputs_noWrite h⟩
  | reset cmd => exact .inr ⟨_, _, exec_reset s cmd, exec_reset u cmd, rfl, congrArg some hseed, rfl⟩
  | tick => exact execTick_sameOutcomes h hpol
  | fpAdvance | gatePass => exact advance_sameOutcomes h hpol
  | fpAdvanceIf08 | fpAdvanceIf16 | fpAdvanceIf24 => exact advanceIf_sameOutcomes h hpol
  | fpIdleL1 | fpIdleL2 | fpIdleL3 | fpIdleL4 | fpIdleL5 | fpIdleL6 | fpIdle07 | fpIdle15 | fpIdle23
  | gateBlockB2 | gateBlockB3 => exact stay_sameOutcomes h
  | lfsrShift | lfsrShiftXor =>
    exact inTick_sameOutcomes h fun _ _ => sameOutputs_noWrite (sameRegisters_writeSr h _)
  | fpEmit | dutyFull | dutyNibble => exact inTick_sameOutcomes h fun _ _ => sameOutputs_dutyWrite h _

end Polarity

end Operations

/-! ### The obligation -/

/-- Settles O52: the two-state comparison is `exec_sameOutcomes`, `TICK` reads only the registers it needs to complete, and
`HOLD` only clears the port. -/
theorem operationsDependOnRegistersAndParametersOnly : Obligations.OperationsDependOnRegistersAndParametersOnly := by
  unfold Obligations.OperationsDependOnRegistersAndParametersOnly
  refine ⟨fun i s u hfc hsr hseed hpol => exec_sameOutcomes ⟨hfc, hsr⟩ hpol hseed i, fun s ⟨hf, hx⟩ => ?total,
    fun s => ⟨_, exec_hold s, rfl, rfl, rfl, rfl⟩⟩
  case total =>
    obtain ⟨fc, hf⟩ := Option.isSome_iff_exists.1 hf
    obtain ⟨x, hx⟩ := Option.isSome_iff_exists.1 hx
    exact ⟨_, exec_tick_of_values hf hx⟩

end Sys2Proof.Machine
end

section
/-!
PROOFS. Rules R100 to R107: the LFSR step as a function of words. The step is the shift XOR a term that depends on one
bit, `feedbackWhen`, so its bits, its linearity and its collisions are read off that form.
-/

namespace Sys2Proof.Machine

open Sys2Proof.Config

/-! ### The feedback term -/

/-- What the step XORs into the shifted word: the feedback constant, or nothing. -/
def feedbackWhen (fed : Bool) : SrWord := if fed then feedback else 0#32

@[simp] theorem feedbackWhen_true : feedbackWhen true = feedback := rfl

@[simp] theorem feedbackWhen_false : feedbackWhen false = 0#32 := rfl

theorem feedbackWhen_getLsbD (fed : Bool) (i : Nat) :
    (feedbackWhen fed).getLsbD i = (fed && feedback.getLsbD i) := by
  cases fed <;> simp

theorem feedbackWhen_xor (a b : Bool) : feedbackWhen (a ^^ b) = feedbackWhen a ^^^ feedbackWhen b := by
  cases a <;> cases b <;> simp

theorem feedbackWhen_not (fed : Bool) : feedbackWhen (!fed) = feedbackWhen fed ^^^ feedback := by
  cases fed <;> simp

/-- The set bits of the constant (rule R101). -/
theorem feedback_getLsbD_eq_true_iff (i : Nat) :
    feedback.getLsbD i = true ↔ (i = 0 ∨ i = 3 ∨ i = 4 ∨ i = 6 ∨ i = 8 ∨ (12 ≤ i ∧ i ≤ 30)) := by
  have hlow : ∀ i < 32,
      feedback.getLsbD i = true ↔ (i = 0 ∨ i = 3 ∨ i = 4 ∨ i = 6 ∨ i = 8 ∨ (12 ≤ i ∧ i ≤ 30)) := by decide
  by_cases hi : i < 32
  · exact hlow i hi
  · rw [BitVec.getLsbD_of_ge feedback i (by omega)]
    simp only [Bool.false_eq_true, false_iff]
    omega

/-! ### The step -/

theorem applyFeedback_onZero (x : SrWord) : applyFeedback .onZero x = !x.getLsbD 0 := applyFeedback_eq .onZero x

theorem lfsrStep_eq_xor (pol : FeedbackPolarity) (x : SrWord) :
    lfsrStep pol x = (x >>> 1) ^^^ feedbackWhen (applyFeedback pol x) := by
  unfold lfsrStep
  split
  · next h => rw [h, feedbackWhen_true]
  · next h => rw [Bool.eq_false_iff.2 h, feedbackWhen_false, BitVec.xor_zero]

theorem lfsrStep_onOne_eq_xor (x : SrWord) : lfsrStep .onOne x = (x >>> 1) ^^^ feedbackWhen (x.getLsbD 0) := by
  rw [lfsrStep_eq_xor, applyFeedback_onOne]

theorem lfsrStep_onZero_eq_xor (x : SrWord) : lfsrStep .onZero x = (x >>> 1) ^^^ feedbackWhen (!x.getLsbD 0) := by
  rw [lfsrStep_eq_xor, applyFeedback_onZero]

/-- The two polarities differ by the constant at every word (rule R104). -/
theorem lfsrStep_onZero_eq_onOne_xor (x : SrWord) : lfsrStep .onZero x = lfsrStep .onOne x ^^^ feedback := by
  rw [lfsrStep_onZero_eq_xor, lfsrStep_onOne_eq_xor, feedbackWhen_not, BitVec.xor_assoc]

theorem lfsrStep_getLsbD (pol : FeedbackPolarity) (x : SrWord) (i : Nat) :
    (lfsrStep pol x).getLsbD i = (x.getLsbD (i + 1) ^^ (applyFeedback pol x && feedback.getLsbD i)) := by
  rw [lfsrStep_eq_xor, BitVec.getLsbD_xor, BitVec.getLsbD_ushiftRight, feedbackWhen_getLsbD, Nat.add_comm]

/-- The shift clears bit 31, and the constant has it clear (rule R106). -/
theorem lfsrStep_getLsbD_31 (pol : FeedbackPolarity) (x : SrWord) : (lfsrStep pol x).getLsbD 31 = false := by
  have hfeedback : feedback.getLsbD 31 = false := rfl
  rw [lfsrStep_getLsbD, hfeedback, BitVec.getLsbD_of_ge x 32 le_rfl, Bool.and_false, Bool.xor_false]

/-! ### The byte-serial form -/

/-- One byte of the chain: fed with bit 0 of the byte above, it gives the byte of the shifted word and hands its own
bit 0 on. -/
theorem shiftByte_srByte (x : SrWord) (k : Nat) :
    shiftByte (x.extractLsb' (8 * (k + 1)) 1) (srByte x k) = (srByte (x >>> 1) k, x.extractLsb' (8 * k) 1) := by
  refine Prod.ext (BitVec.eq_of_getLsbD_eq fun i hi => ?byte) (BitVec.eq_of_getLsbD_eq fun i hi => ?carry)
  case byte =>
    simp only [shiftByte, srByte, BitVec.getLsbD_append, BitVec.getLsbD_extractLsb', BitVec.getLsbD_ushiftRight, hi]
    split
    · next hlow =>
      have hindex : 8 * k + (1 + i) = 1 + (8 * k + i) := by omega
      simp [hlow, hindex, show 1 + i < 8 by omega]
    · next hhigh =>
      obtain rfl : i = 7 := by omega
      have hindex : 8 * (k + 1) = 1 + (8 * k + 7) := by omega
      simp [hindex]
  case carry =>
    obtain rfl : i = 0 := by omega
    simp [shiftByte, srByte]

/-- A word is its four bytes (rule R23). -/
theorem srByte_append_eq_self (x : SrWord) : srByte x 3 ++ srByte x 2 ++ srByte x 1 ++ srByte x 0 = x := by
  unfold srByte
  rw [BitVec.extractLsb'_append_extractLsb'_eq_extractLsb' (by decide),
    BitVec.extractLsb'_append_extractLsb'_eq_extractLsb' (by decide),
    BitVec.extractLsb'_append_extractLsb'_eq_extractLsb' (by decide)]
  exact BitVec.extractLsb'_eq_self

theorem byteSerialShift_eq (x : SrWord) : byteSerialShift x = (x >>> 1, x.extractLsb' 0 1) := by
  have htop : 0#1 = x.extractLsb' (8 * (3 + 1)) 1 := by simp [BitVec.eq_of_getLsbD_eq_iff]
  simp only [byteSerialShift]
  rw [htop, shiftByte_srByte x 3, shiftByte_srByte x 2, shiftByte_srByte x 1, shiftByte_srByte x 0,
    srByte_append_eq_self]

/-! ### The fixed points -/

theorem ushiftRight_one_eq_self_iff (x : SrWord) : x >>> 1 = x ↔ x = 0#32 := by
  rw [← BitVec.toNat_inj, ← BitVec.toNat_inj, BitVec.toNat_ushiftRight, Nat.shiftRight_eq_div_pow]
  have hzero : (0#32).toNat = 0 := rfl
  omega

/-- `x ↦ x ^^^ (x >>> 1)` is linear with kernel 0, so it takes the value of the constant at one word only. -/
theorem ushiftRight_one_xor_feedback_eq_self_iff (x : SrWord) :
    (x >>> 1) ^^^ feedback = x ↔ x = 0x55555E6E#32 := by
  have hfixed : (0x55555E6E#32 >>> 1) ^^^ feedback = 0x55555E6E#32 := by decide
  constructor
  · intro h
    have hshift : (x ^^^ 0x55555E6E#32) >>> 1 = x ^^^ 0x55555E6E#32 := by
      calc (x ^^^ 0x55555E6E#32) >>> 1
        _ = ((x >>> 1) ^^^ feedback) ^^^ ((0x55555E6E#32 >>> 1) ^^^ feedback) := by
          rw [BitVec.ushiftRight_xor_distrib, BitVec.xor_assoc, BitVec.xor_comm feedback,
            BitVec.xor_assoc _ feedback, BitVec.xor_self, BitVec.xor_zero]
        _ = x ^^^ 0x55555E6E#32 := by rw [h, hfixed]
    exact BitVec.xor_eq_zero_iff.1 ((ushiftRight_one_eq_self_iff _).1 hshift)
  · rintro rfl
    exact hfixed

/-! ### Linearity and collisions -/

theorem lfsrStep_onOne_xor (x y : SrWord) :
    lfsrStep .onOne (x ^^^ y) = lfsrStep .onOne x ^^^ lfsrStep .onOne y := by
  simp only [lfsrStep_onOne_eq_xor, BitVec.ushiftRight_xor_distrib, BitVec.getLsbD_xor, feedbackWhen_xor]
  ac_rfl

/-- Two words with the same shift and the same bit 0 are one. -/
theorem eq_of_ushiftRight_one_eq {x y : SrWord} (hshift : x >>> 1 = y >>> 1) (hbit : x.getLsbD 0 = y.getLsbD 0) :
    x = y := by
  apply BitVec.eq_of_getLsbD_eq
  rintro (_ | i) -
  · exact hbit
  · simpa [Nat.add_comm] using congrArg (·.getLsbD i) hshift

/-- The kernel of the step: a word whose shift is the feedback term of its bit 0. -/
theorem lfsrStep_onOne_eq_zero_iff (x : SrWord) :
    lfsrStep .onOne x = 0#32 ↔ x = 0#32 ∨ x = 0xFFFFE2B3#32 := by
  constructor
  · intro h
    rw [lfsrStep_onOne_eq_xor, BitVec.xor_eq_zero_iff] at h
    cases hbit : x.getLsbD 0 with
    | false => exact .inl (eq_of_ushiftRight_one_eq (by rw [h, hbit]; decide) hbit)
    | true => exact .inr (eq_of_ushiftRight_one_eq (by rw [h, hbit]; decide) hbit)
  · rintro (rfl | rfl) <;> decide

theorem lfsrStep_onOne_eq_iff (x y : SrWord) :
    lfsrStep .onOne x = lfsrStep .onOne y ↔ x = y ∨ x = y ^^^ 0xFFFFE2B3#32 := by
  have hsolve : x ^^^ y = 0xFFFFE2B3#32 ↔ x = y ^^^ 0xFFFFE2B3#32 := by
    rw [← BitVec.xor_left_inj y, BitVec.xor_assoc, BitVec.xor_self, BitVec.xor_zero, BitVec.xor_comm y]
  rw [← BitVec.xor_eq_zero_iff, ← lfsrStep_onOne_xor, lfsrStep_onOne_eq_zero_iff, BitVec.xor_eq_zero_iff, hsolve]

theorem lfsrStep_eq_iff (pol : FeedbackPolarity) (x y : SrWord) :
    lfsrStep pol x = lfsrStep pol y ↔ x = y ∨ x = y ^^^ 0xFFFFE2B3#32 := by
  cases pol with
  | onOne => exact lfsrStep_onOne_eq_iff x y
  | onZero =>
    rw [lfsrStep_onZero_eq_onOne_xor, lfsrStep_onZero_eq_onOne_xor, BitVec.xor_left_inj]
    exact lfsrStep_onOne_eq_iff x y

/-! ### The inverse -/

theorem lfsrStepInv_eq (t : SrWord) :
    lfsrStepInv t = ((t ^^^ feedbackWhen (t.getLsbD 30)) <<< 1) ||| (t.extractLsb' 30 1).setWidth 32 := by
  simp only [lfsrStepInv, feedbackWhen, extractLsb'_one_eq_one_iff]

theorem lfsrStepInv_getLsbD_zero (t : SrWord) : (lfsrStepInv t).getLsbD 0 = t.getLsbD 30 := by
  simp [lfsrStepInv_eq]

theorem lfsrStepInv_getLsbD_succ (t : SrWord) {i : Nat} (hi : i < 31) :
    (lfsrStepInv t).getLsbD (i + 1) = (t.getLsbD i ^^ (t.getLsbD 30 && feedback.getLsbD i)) := by
  have hlt : i + 1 < 32 := by omega
  have hlow : ((t.extractLsb' 30 1).setWidth 32).getLsbD (i + 1) = false := by simp
  rw [lfsrStepInv_eq, BitVec.getLsbD_or, hlow, BitVec.getLsbD_shiftLeft, Nat.add_sub_cancel, BitVec.getLsbD_xor,
    feedbackWhen_getLsbD]
  simp [hlt]

/-- Bit 30 of the constant is set, so it cancels in the inverse's top bit. -/
theorem lfsrStepInv_getLsbD_31 (t : SrWord) : (lfsrStepInv t).getLsbD 31 = false := by
  have hfeedback : feedback.getLsbD 30 = true := rfl
  rw [lfsrStepInv_getLsbD_succ t (by decide), hfeedback, Bool.and_true, Bool.xor_self]

theorem lfsrStep_lfsrStepInv {t : SrWord} (ht : t.getLsbD 31 = false) : lfsrStep .onOne (lfsrStepInv t) = t := by
  apply BitVec.eq_of_getLsbD_eq
  intro i hi
  by_cases htop : i = 31
  · rw [htop, lfsrStep_getLsbD_31, ht]
  · rw [lfsrStep_getLsbD, applyFeedback_onOne, lfsrStepInv_getLsbD_zero, lfsrStepInv_getLsbD_succ t (by omega),
      Bool.xor_assoc, Bool.xor_self, Bool.xor_false]

/-- The words of a collision differ in bit 31. -/
theorem xor_kernel_getLsbD_31 (x : SrWord) : (x ^^^ 0xFFFFE2B3#32).getLsbD 31 = !x.getLsbD 31 := by
  have hkernel : (0xFFFFE2B3#32).getLsbD 31 = true := rfl
  rw [BitVec.getLsbD_xor, hkernel, Bool.xor_true]

/-- Of the two predecessors of a step's result, the inverse gives the one with bit 31 clear. -/
theorem lfsrStepInv_lfsrStep {x : SrWord} (hx : x.getLsbD 31 = false) : lfsrStepInv (lfsrStep .onOne x) = x := by
  have hstep := lfsrStep_lfsrStepInv (lfsrStep_getLsbD_31 .onOne x)
  obtain h | h := (lfsrStep_onOne_eq_iff _ x).1 hstep
  · exact h
  · have hbit := lfsrStepInv_getLsbD_31 (lfsrStep .onOne x)
    rw [h, xor_kernel_getLsbD_31, hx] at hbit
    cases hbit

/-! ### The obligations -/

/-- Settles O38: the bits are `feedback_getLsbD_eq_true_iff`, and the rest is evaluated. -/
theorem feedbackConstantBits : Obligations.FeedbackConstantBits := by
  unfold Obligations.FeedbackConstantBits
  exact ⟨rfl, rfl, feedback_getLsbD_eq_true_iff, by decide⟩

/-- Settles O37, by the bits of the step; above bit 31 a word has only zeros. -/
theorem lfsrStepBitByBit : Obligations.LfsrStepBitByBit := by
  unfold Obligations.LfsrStepBitByBit
  intro x i hi
  have hshift : (decide (i < 31) && x.getLsbD (i + 1)) = x.getLsbD (i + 1) := by
    by_cases htop : i < 31
    · simp [htop]
    · rw [BitVec.getLsbD_of_ge x (i + 1) (by omega), Bool.and_false]
  rw [hshift, lfsrStep_getLsbD, lfsrStep_getLsbD, applyFeedback_onOne, applyFeedback_onZero]
  exact ⟨rfl, rfl⟩

/-- Settles O39: each byte of the chain is `shiftByte_srByte`. -/
theorem byteSerialFormIsTheShift : Obligations.ByteSerialFormIsTheShift := byteSerialShift_eq

/-- Settles O40, by the form of the step under either polarity. -/
theorem variantPolarityIsTheOtherBranch : Obligations.VariantPolarityIsTheOtherBranch := by
  unfold Obligations.VariantPolarityIsTheOtherBranch
  refine fun x => ⟨lfsrStep_onZero_eq_onOne_xor x, fun hclear => ?_, fun hset => ?_⟩
  · rw [lfsrStep_onZero_eq_xor, hclear]
    rfl
  · rw [lfsrStep_onZero_eq_xor, hset, Bool.not_true, feedbackWhen_false, BitVec.xor_zero]

/-- Settles O41: each branch of the step has one fixed point, and both fixed points have bit 0 clear, which is the
shift's branch under `ON_ONE` and the constant's under `ON_ZERO`. -/
theorem onlyFixedPoints : Obligations.OnlyFixedPoints := by
  unfold Obligations.OnlyFixedPoints
  refine ⟨fun x => ⟨fun h => ?onOne, ?zero⟩, fun x => ⟨fun h => ?onZero, ?variant⟩, by decide⟩
  case onOne =>
    rw [lfsrStep_onOne_eq_xor] at h
    cases hbit : x.getLsbD 0 with
    | false =>
      rw [hbit, feedbackWhen_false, BitVec.xor_zero] at h
      exact (ushiftRight_one_eq_self_iff x).1 h
    | true =>
      rw [hbit, feedbackWhen_true, ushiftRight_one_xor_feedback_eq_self_iff] at h
      subst h
      exact absurd hbit (by decide)
  case onZero =>
    rw [lfsrStep_onZero_eq_xor] at h
    cases hbit : x.getLsbD 0 with
    | false =>
      rw [hbit, Bool.not_false, feedbackWhen_true] at h
      exact (ushiftRight_one_xor_feedback_eq_self_iff x).1 h
    | true =>
      rw [hbit, Bool.not_true, feedbackWhen_false, BitVec.xor_zero, ushiftRight_one_eq_self_iff] at h
      subst h
      exact absurd hbit (by decide)
  case zero =>
    rintro rfl
    decide
  case variant =>
    rintro rfl
    decide

/-- Settles O42: the predecessors of `t` are the words that collide with `LfsrStepInv(t)`. -/
theorem lfsrStepCollisionsAndInverse : Obligations.LfsrStepCollisionsAndInverse := by
  unfold Obligations.LfsrStepCollisionsAndInverse
  refine ⟨lfsrStep_onOne_xor, lfsrStep_onOne_eq_zero_iff, lfsrStep_eq_iff, fun t ht => ?predecessors,
    fun x hx => lfsrStepInv_lfsrStep hx, lfsrStep_getLsbD_31⟩
  case predecessors =>
    have hinv := lfsrStep_lfsrStepInv ht
    refine ⟨lfsrStepInv_getLsbD_31 t, hinv, ?_, fun x => ?_⟩
    · rw [xor_kernel_getLsbD_31, lfsrStepInv_getLsbD_31]
      rfl
    · have hiff := lfsrStep_onOne_eq_iff x (lfsrStepInv t)
      rwa [hinv] at hiff

end Sys2Proof.Machine
end

section
/-!
PROOFS. Rules R109 and R111: which commands change `SR`, and the device that keeps it 0.
-/

namespace Sys2Proof.Machine

open Sys2Proof.Config

/-! ### The writers of `SR` -/

/-- A tick that changes `SR` had its gate open. -/
theorem execTick_next_sr_ne {s t : State} (h : execTick s = .next t) (hne : t.sr ≠ s.sr) :
    ∃ fc x, s.fc = some fc ∧ s.sr = some x ∧ gate (inc5 fc) x = true ∧
      t.sr = some (lfsrStep s.params.feedbackPolarity x) := by
  obtain ⟨fc, x, s1, hf, hx, rfl, rfl⟩ := execTick_next h
  rw [commitFc_sr, writeSr_sr] at hne ⊢
  by_cases hgate : gate (inc5 fc) x = true
  · exact ⟨fc, x, hf, hx, hgate, by rw [if_pos hgate]⟩
  · exact absurd (by rw [if_neg hgate, hx]) hne

/-! ### The normative device: every update a step makes keeps `DoesNotFlicker` -/

section Updates

variable {s : State} (hs : DoesNotFlicker s)
include hs

theorem doesNotFlicker_writeSr_zero : DoesNotFlicker (writeSr 0#32 s) := by
  obtain ⟨hseed, hpol, -, hwrites⟩ := hs
  exact ⟨hseed, hpol, fun x hx => (Option.some.inj hx).symm, hwrites⟩

theorem doesNotFlicker_commitFc (v : FramePos) : DoesNotFlicker (commitFc v s) := hs

theorem doesNotFlicker_noWrite : DoesNotFlicker (noWrite s) := hs

theorem doesNotFlicker_countOp : DoesNotFlicker (countOp s) := hs

theorem doesNotFlicker_setPending (rest : List Event) : DoesNotFlicker { s with pending := rest } := hs

theorem doesNotFlicker_powerCycle : DoesNotFlicker (powerCycle s) := by
  obtain ⟨hseed, hpol, -, hwrites⟩ := hs
  exact ⟨hseed, hpol, nofun, hwrites⟩

theorem doesNotFlicker_dutyWrite_0x0F : DoesNotFlicker (dutyWrite 0x0F#8 s) := by
  obtain ⟨hseed, hpol, hsr, hwrites⟩ := hs
  refine ⟨hseed, hpol, hsr, fun e he => ?_⟩
  obtain he | he := List.mem_append.1 he
  · exact hwrites e he
  · rw [List.mem_singleton.1 he]

end Updates

theorem lfsrStep_onOne_zero : lfsrStep .onOne 0#32 = 0#32 := (lfsrStep_onOne_eq_zero_iff _).2 (.inl rfl)

theorem dutyMap_zero : dutyMap 0#32 = 0x0F#8 := BitVec.eq_of_toNat_eq (dutyMap_toNat 0#32)

theorem doesNotFlicker_emit_zero {s : State} (hs : DoesNotFlicker s) (fc1 : FramePos) :
    DoesNotFlicker (emit fc1 0#32 s) := by
  unfold emit
  split
  · rw [dutyMap_zero]
    exact doesNotFlicker_dutyWrite_0x0F hs
  · exact doesNotFlicker_noWrite hs

/-- A tick on 0 leaves 0, advanced or not, and writes at most the duty value of 0. -/
theorem execTick_next_doesNotFlicker {s t : State} (hs : DoesNotFlicker s) (h : execTick s = .next t) :
    DoesNotFlicker t := by
  have ⟨_, hpol, hsr, _⟩ := hs
  obtain ⟨fc, x, s1, -, hx, hs1, rfl⟩ := execTick_next h
  obtain rfl : s1 = 0#32 := by
    rw [hs1, hsr x hx, hpol, lfsrStep_onOne_zero, ite_self]
  exact doesNotFlicker_commitFc (doesNotFlicker_writeSr_zero (doesNotFlicker_emit_zero hs _)) _

theorem step_next_doesNotFlicker {s t : State} (hs : DoesNotFlicker s) (h : step s = .next t) :
    DoesNotFlicker t := by
  obtain ⟨rest, -, rfl⟩ | ⟨rest, rfl⟩ | ⟨rest, u, hu, rfl⟩ | ⟨rest, rfl⟩ := step_cases h
  · exact doesNotFlicker_powerCycle (doesNotFlicker_setPending hs rest)
  · exact doesNotFlicker_countOp (doesNotFlicker_noWrite (doesNotFlicker_setPending hs rest))
  · exact doesNotFlicker_countOp (execTick_next_doesNotFlicker (doesNotFlicker_setPending hs rest) hu)
  · rw [hs.1]
    exact doesNotFlicker_countOp (doesNotFlicker_noWrite
      (doesNotFlicker_commitFc (doesNotFlicker_writeSr_zero (doesNotFlicker_setPending hs rest)) _))

theorem doesNotFlicker_reset : DoesNotFlicker State.reset :=
  ⟨rfl, rfl, fun _ hx => (Option.some.inj hx).symm, nofun⟩

/-! ### The obligations -/

/-- Settles O53: `HOLD` leaves `SR`, a `TICK` that changes it advances, and `RESET` writes the seed. -/
theorem noOtherWriterOfTheShiftRegister : Obligations.NoOtherWriterOfTheShiftRegister := by
  unfold Obligations.NoOtherWriterOfTheShiftRegister
  intro i s t hformat h hne
  cases i with
  | hold =>
    rw [exec_hold] at h
    cases h
    exact absurd (noWrite_sr s) hne
  | tick => exact .inl ⟨rfl, execTick_next_sr_ne h hne⟩
  | reset cmd =>
    rw [exec_reset] at h
    cases h
    exact .inr ⟨cmd, rfl, rfl⟩
  | _ => cases hformat

/-- Settles O57: the invariant holds at reset and every step keeps it; the gate passes on 0 because bits 2 and 3 are
clear. -/
theorem normativeResetStateDoesNotFlicker : Obligations.NormativeResetStateDoesNotFlicker := by
  unfold Obligations.NormativeResetStateDoesNotFlicker
  exact ⟨doesNotFlicker_reset, fun _ _ => step_next_doesNotFlicker, lfsrStep_onOne_zero, dutyMap_zero,
    fun fc1 hpos => (gate_eq_true_iff fc1 0#32).2 (.inr ⟨hpos, rfl, rfl⟩)⟩

end Sys2Proof.Machine
end

section
/-!
PROOFS. Rules R120 to R125: the duty mapper as a function of words, and the duty write. What the mapper's value is in
arithmetic (`dutyMap_toNat`) is a law of the tick's own section; its range, its inverse images and the bits it reads are
derived from it here.
-/

namespace Sys2Proof.Machine

open Sys2Proof.Config

/-! ### The range of the mapper -/

/-- Rule R123: both branches give a value with low nibble `0xF`. -/
theorem dutyMap_toNat_mod_16 (x : SrWord) : (dutyMap x).toNat % 16 = 15 := by
  rw [dutyMap_toNat]
  split <;> omega

/-- The dim branch (rule R122). -/
theorem dutyMap_toNat_of_bit4_clear {x : SrWord} (h : x.getLsbD 4 = false) :
    (dutyMap x).toNat = x.toNat % 16 * 16 + 15 := by
  rw [dutyMap_toNat, h, if_neg Bool.false_ne_true]

/-- The dim branch gives back the nibble in the value's high nibble. -/
theorem dutyMap_toNat_div_16 {x : SrWord} (h : x.getLsbD 4 = false) : (dutyMap x).toNat / 16 = x.toNat % 16 := by
  rw [dutyMap_toNat_of_bit4_clear h]
  omega

/-- The mapper on the 32 values of `s[4:0]`: bit 4 is set from 16 on. -/
theorem dutyMap_ofNat_toNat {n : Nat} (h : n < 32) :
    (dutyMap (BitVec.ofNat 32 n)).toNat = if 16 ≤ n then 255 else n * 16 + 15 := by
  have hbit4 : (BitVec.ofNat 32 n).getLsbD 4 = true ↔ 16 ≤ n := by
    simp only [BitVec.getLsbD_ofNat, Nat.testBit_eq_decide_div_mod_eq, Bool.and_eq_true, decide_eq_true_eq]
    omega
  have hnibble : (BitVec.ofNat 32 n).toNat = n := by
    rw [BitVec.toNat_ofNat, Nat.mod_eq_of_lt (by omega)]
  rw [dutyMap_toNat, hnibble]
  simp only [hbit4]
  split <;> omega

/-! ### The words that give a value -/

theorem dutyMap_ofNat_eq_full_iff {n : Nat} (h : n < 32) : dutyMap (BitVec.ofNat 32 n) = 0xFF#8 ↔ 15 ≤ n := by
  rw [← BitVec.toNat_inj, dutyMap_ofNat_toNat h, BitVec.toNat_ofNat]
  split <;> omega

/-- A value of the range below `0xFF` comes from its own high nibble and nothing else. -/
theorem dutyMap_ofNat_eq_iff {n : Nat} (h : n < 32) {v : Byte} (hv : v.toNat % 16 = 15) (hne : v ≠ 0xFF#8) :
    dutyMap (BitVec.ofNat 32 n) = v ↔ n = v.toNat / 16 := by
  have hv255 : v.toNat ≠ 255 := fun h255 => hne (BitVec.eq_of_toNat_eq h255)
  have hlt : v.toNat < 256 := v.isLt
  rw [← BitVec.toNat_inj, dutyMap_ofNat_toNat h]
  split <;> omega

theorem length_filter_dutyMap_eq_full :
    ((List.range 32).filter (fun n => dutyMap (BitVec.ofNat 32 n) = 0xFF#8)).length = 17 := by
  have hcongr : (List.range 32).filter (fun n => dutyMap (BitVec.ofNat 32 n) = 0xFF#8) =
      (List.range 32).filter (fun n => 15 ≤ n) :=
    List.filter_congr fun n hn => decide_eq_decide.2 (dutyMap_ofNat_eq_full_iff (List.mem_range.1 hn))
  rw [hcongr]
  decide

theorem length_filter_dutyMap_eq {v : Byte} (hv : v.toNat % 16 = 15) (hne : v ≠ 0xFF#8) :
    ((List.range 32).filter (fun n => dutyMap (BitVec.ofNat 32 n) = v)).length = 1 := by
  have hcongr : (List.range 32).filter (fun n => dutyMap (BitVec.ofNat 32 n) = v) =
      (List.range 32).filter (fun n => n == v.toNat / 16) :=
    List.filter_congr fun n hn => decide_eq_decide.2 (dutyMap_ofNat_eq_iff (List.mem_range.1 hn) hv hne)
  have hmem : v.toNat / 16 ∈ List.range 32 := List.mem_range.2 (by have := v.isLt; omega)
  rw [hcongr, ← List.countP_eq_length_filter]
  exact List.count_eq_one_of_mem List.nodup_range hmem

/-- A value of the range is taken on the dim branch, at its own high nibble. -/
theorem exists_bit4_clear_dutyMap_eq {v : Byte} (hv : v.toNat % 16 = 15) :
    ∃ x : SrWord, x.getLsbD 4 = false ∧ dutyMap x = v := by
  have hlt : v.toNat < 256 := v.isLt
  refine ⟨BitVec.ofNat 32 (v.toNat / 16), ?clear, BitVec.eq_of_toNat_eq ?value⟩
  case clear =>
    have hbit : (v.toNat / 16).testBit 4 = false := Nat.testBit_lt_two_pow (by omega)
    rw [BitVec.getLsbD_ofNat, hbit, Bool.and_false]
  case value =>
    rw [dutyMap_ofNat_toNat (by omega), if_neg (by omega)]
    omega

/-! ### The bits the mapper reads -/

/-- The mapper reads bit 4 and the low nibble (rules R120 to R122). -/
theorem dutyMap_congr {x y : SrWord} (hsel : dutySel x = dutySel y) (hnibble : nibble x = nibble y) :
    dutyMap x = dutyMap y := by
  rw [dutyMap, dutyMap, hsel, hnibble]

theorem dutySel_eq_extractLsb'_low (x : SrWord) : dutySel x = (x.extractLsb' 0 5).extractLsb' 4 1 :=
  (BitVec.extractLsb'_extractLsb'_of_le (by decide)).symm

theorem nibble_eq_extractLsb'_low (x : SrWord) : nibble x = (x.extractLsb' 0 5).extractLsb' 0 4 :=
  (BitVec.extractLsb'_extractLsb'_of_le (by decide)).symm

theorem dutySel_of_bit4_clear {x : SrWord} (h : x.getLsbD 4 = false) : dutySel x = 0#1 :=
  (extractLsb'_one_eq_zero_iff x 4).2 h

/-! ### The tick that performs the duty write -/

theorem writeSr_eq_self {s : State} {x : SrWord} (hx : s.sr = some x) : writeSr x s = s := by
  rw [writeSr, ← hx]

/-- The gate is closed at position 31 (rule R82), so the tick that lands there leaves `SR`. -/
theorem srAfterTick_30 (pol : FeedbackPolarity) (x : SrWord) : srAfterTick pol 30#5 x = x := by
  have hgate : gate (inc5 30#5) x = false := gate_emitPos x
  rw [srAfterTick, hgate, if_neg Bool.false_ne_true]

/-- The tick from position 30 is the duty write and the commit, and nothing else. -/
theorem exec_tick_30 {s : State} {x : SrWord} (hf : s.fc = some 30#5) (hx : s.sr = some x) :
    exec .tick s = .next (commitFc 31#5 (dutyWrite (dutyMap x) s)) := by
  have hsr : (dutyWrite (dutyMap x) s).sr = some x := hx
  rw [exec_tick_of_eq_30 hf hx rfl, srAfterTick_30, writeSr_eq_self hsr]

/-! ### The obligations -/

/-- Settles O44: it is the law `dutyMap_toNat` of the tick's section, for every word. -/
theorem dutyMapFollowsBit4AndTheNibble : Obligations.DutyMapFollowsBit4AndTheNibble := by
  unfold Obligations.DutyMapFollowsBit4AndTheNibble
  exact dutyMap_toNat

/-- Settles O45: the counts are those of the numbers from 15 on, and of one number, among those below 32. -/
theorem dutyMapRange : Obligations.DutyMapRange := by
  unfold Obligations.DutyMapRange
  exact ⟨dutyMap_toNat_mod_16, fun _ => exists_bit4_clear_dutyMap_eq, fun _ => dutyMap_toNat_div_16,
    length_filter_dutyMap_eq_full, fun _ => length_filter_dutyMap_eq⟩

/-- Settles O46: bit 4 and the low nibble are parts of the low five bits, and the mapper reads nothing else. -/
theorem dutyMapReadsFiveBits : Obligations.DutyMapReadsFiveBits := by
  unfold Obligations.DutyMapReadsFiveBits
  refine ⟨fun x y h => dutyMap_congr ?sel ?nibble, fun x y hx hy hnibble => dutyMap_congr ?_ hnibble⟩
  case sel => rw [dutySel_eq_extractLsb'_low, h, ← dutySel_eq_extractLsb'_low]
  case nibble => rw [nibble_eq_extractLsb'_low, h, ← nibble_eq_extractLsb'_low]
  rw [dutySel_of_bit4_clear hx, dutySel_of_bit4_clear hy]

/-- Settles O47: the write is unconditional by its definition, and the tick from position 30 performs it on the `SR` it
started with. -/
theorem dutyWriteIsAlwaysAWrite : Obligations.DutyWriteIsAlwaysAWrite := by
  unfold Obligations.DutyWriteIsAlwaysAWrite
  exact ⟨fun _ _ => ⟨rfl, rfl, rfl⟩, fun _ _ => exec_tick_30⟩

end Sys2Proof.Machine
end

section
/-!
PROOFS. Rules R140 and R142: what completes, and the one fault. Both are facts about the entry of a tick, since `HOLD` and
`RESET` always complete.
-/

namespace Sys2Proof.Machine

/-! ### The entry of a tick where the registers hold values -/

theorem inTick_completes {s : State} (hs : HoldsValues s) (body : FramePos → SrWord → State) :
    ∃ t, inTick s body = .next t := by
  obtain ⟨hfc, hsr⟩ := hs
  obtain ⟨fc, hf⟩ := Option.isSome_iff_exists.1 hfc
  obtain ⟨sr, hx⟩ := Option.isSome_iff_exists.1 hsr
  exact ⟨_, inTick_of_values hf hx body⟩

/-! ### The obligations -/

/-- Settles O31: `HOLD` and `RESET` complete in every state, and every other operation is a body run through the entry of
a tick (`exec_shape`). -/
theorem everyOperationCompletesOnceReset : Obligations.EveryOperationCompletesOnceReset := by
  unfold Obligations.EveryOperationCompletesOnceReset
  intro i s hs
  obtain rfl | ⟨cmd, rfl⟩ | ⟨-, -, body, hbody⟩ := exec_shape s i
  · exact ⟨_, exec_hold s⟩
  · exact ⟨_, exec_reset s cmd⟩
  · rw [hbody]
    exact inTick_completes hs body

/-- Settles O29: `HOLD` and `RESET` complete, a `TICK` faults by `exec_tick_fault_iff`, and the type of faults has one
constructor. -/
theorem onlyATickBeforeResetFaults : Obligations.OnlyATickBeforeResetFaults := by
  unfold Obligations.OnlyATickBeforeResetFaults
  refine ⟨fun i s hformat => ?command, fun f => ?fault⟩
  case command =>
    cases i with
    | hold =>
      rw [exec_hold]
      exact ⟨nofun, fun ⟨htick, _⟩ => nomatch htick⟩
    | reset cmd =>
      rw [exec_reset]
      exact ⟨nofun, fun ⟨htick, _⟩ => nomatch htick⟩
    | tick => rw [exec_tick_fault_iff, and_iff_right rfl]
    | _ => cases hformat
  case fault =>
    cases f
    rfl

end Sys2Proof.Machine
end

section
/-!
PROOFS. Rules R160 and R161: what a `RESET` gives, from any state and at any step.
-/

namespace Sys2Proof.Machine

open Sys2Proof.Config

/-! ### The `rst` bit -/

/-- A command with its `rst` bit set is `RESET`, whatever its `tick` bit (rules R60 and R66): neither `0b00` nor `0b01`
has that bit. -/
theorem decodeCommand_of_rst {cmd : CmdWord} (hrst : cmd.getLsbD 1 = true) : decodeCommand cmd = .reset cmd := by
  have hhold : cmd ≠ 0b00#2 := by
    rintro rfl
    exact absurd hrst (by decide)
  have htick : cmd ≠ 0b01#2 := by
    rintro rfl
    exact absurd hrst (by decide)
  rw [decodeCommand, if_neg hhold, if_neg htick]

/-- The step at a delivered `RESET` completes in every state. -/
theorem step_reset {s : State} {cmd : CmdWord} {rest : List Event} (h : s.pending = .command cmd :: rest)
    (hrst : cmd.getLsbD 1 = true) :
    step s = .next (countOp (noWrite (commitFc 0#5 (writeSr s.params.srSeed { s with pending := rest })))) := by
  rw [step_command h, decodeCommand_of_rst hrst, exec_reset, finishOp_next]

/-! ### The obligations -/

/-- Settles O14: `exec_reset` asks nothing of the state or of the command word, and its three updates are those of the
statement. -/
theorem resetGivesTheResetState : Obligations.ResetGivesTheResetState := by
  unfold Obligations.ResetGivesTheResetState
  obtain ⟨h10, h11⟩ := decodeCommand_reset_words
  have hseed : Params.normative.srSeed = 0x00000000#32 := rfl
  exact ⟨h10, h11, hseed, fun cmd s => exec_reset s cmd⟩

/-- Settles O15: the step at a command with `rst` set is `step_reset`, and the laws of its updates give each field. -/
theorem lateResetStartsANewRun : Obligations.LateResetStartsANewRun := by
  unfold Obligations.LateResetStartsANewRun
  intro s cmd rest hpending hrst
  refine ⟨_, step_reset hpending hrst, ?_⟩
  simp

end Sys2Proof.Machine
end

section
/-!
PROOFS. Rules R60, R63 and R64: the decoder, the encoder and the opcode table describe the same five fields. A byte that
fits a field is the zero extension of a value of the field, so what the decoder says of bytes follows from one check over
the values of each field.
-/

namespace Sys2Proof.Machine

/-! ### Encoding, then decoding -/

/-- Decoding in an operation's own field undoes encoding; an operand ranges over the values of its field. -/
theorem decode_encode (i : Instr) : i.wellFormed = true → decode i.format (encode i) = .instr i := by
  cases i with
  | reset cmd => revert cmd; decide
  | fpIdleL1 pos | fpIdleL2 pos | fpIdleL3 pos | fpIdleL4 pos | fpIdleL5 pos | fpIdleL6 pos => revert pos; decide
  | gateBlockB2 g => revert g; decide
  | hold | tick | fpAdvance | fpAdvanceIf08 | fpAdvanceIf16 | fpAdvanceIf24 | fpEmit | fpIdle07 | fpIdle15 | fpIdle23
  | lfsrShift | lfsrShiftXor | gatePass | gateBlockB3 | dutyFull | dutyNibble => exact fun _ => rfl

/-! ### Decoding a byte that fits its field -/

/-- What it is for the byte `b` of the field `fmt` to stand for an operation: it decodes to it, and the operation is well
formed, of that field, encodes to that byte, and has the only row of the field that the byte lies in. -/
def StandsFor (fmt : Format) (b : Byte) (i : Instr) : Prop :=
  decode fmt b = .instr i ∧ i.wellFormed = true ∧ i.format = fmt ∧ encode i = b ∧ rowsHit fmt b = [i.row]

theorem standsFor_decodeCommand (v : CmdWord) : StandsFor .ifaceCmd (v.setWidth 8) (decodeCommand v) := by
  unfold StandsFor
  revert v
  decide

theorem standsFor_decodePolicy (v : FramePos) : StandsFor .framePolicy (v.setWidth 8) (decodePolicy v) := by
  unfold StandsFor
  revert v
  decide

theorem standsFor_decodeLfsr (v : BitVec 1) : StandsFor .lfsrSelect (v.setWidth 8) (decodeLfsr v) := by
  unfold StandsFor
  revert v
  decide

theorem standsFor_decodeGate (v : BitVec 2) : StandsFor .gateSelect (v.setWidth 8) (decodeGate v) := by
  unfold StandsFor
  revert v
  decide

theorem standsFor_decodeDuty (v : BitVec 1) : StandsFor .dutySelect (v.setWidth 8) (decodeDuty v) := by
  unfold StandsFor
  revert v
  decide

/-- A byte that fits a field is the zero extension of a value of the field. -/
theorem exists_setWidth_eq_of_lt {w : Nat} {b : Byte} (h : b.toNat < 2 ^ w) : ∃ v : BitVec w, b = v.setWidth 8 := by
  refine ⟨b.setWidth w, BitVec.eq_of_toNat_eq ?_⟩
  rw [BitVec.toNat_setWidth, BitVec.toNat_setWidth, Nat.mod_eq_of_lt h, Nat.mod_eq_of_lt b.isLt]

/-- Every byte that fits a field stands for an operation. -/
theorem exists_standsFor_of_fits {fmt : Format} {b : Byte} (h : b.toNat < 2 ^ fmt.width) : ∃ i, StandsFor fmt b i := by
  obtain ⟨v, rfl⟩ := exists_setWidth_eq_of_lt h
  cases fmt with
  | ifaceCmd => exact ⟨_, standsFor_decodeCommand v⟩
  | framePolicy => exact ⟨_, standsFor_decodePolicy v⟩
  | lfsrSelect => exact ⟨_, standsFor_decodeLfsr v⟩
  | gateSelect => exact ⟨_, standsFor_decodeGate v⟩
  | dutySelect => exact ⟨_, standsFor_decodeDuty v⟩

theorem decode_of_not_fits {fmt : Format} {b : Byte} (h : 2 ^ fmt.width ≤ b.toNat) :
    decode fmt b = .outsideField fmt b :=
  if_neg h.not_gt

/-! ### The obligations -/

/-- Settles O2: it is `decode_encode`. -/
theorem decodeOfEncodeIsTheOperation : Obligations.DecodeOfEncodeIsTheOperation := decode_encode

/-- Settles O3: a byte that decodes to an operation fits its field, so it stands for that operation. -/
theorem encodeOfDecodeIsTheByte : Obligations.EncodeOfDecodeIsTheByte := by
  unfold Obligations.EncodeOfDecodeIsTheByte
  intro fmt b i hdecode
  by_cases hfits : b.toNat < 2 ^ fmt.width
  · obtain ⟨j, hj, hwf, hformat, hencode, -⟩ := exists_standsFor_of_fits hfits
    obtain rfl : j = i := Decoded.instr.inj (hj.symm.trans hdecode)
    exact ⟨hwf, hformat, hencode⟩
  · rw [decode_of_not_fits (Nat.le_of_not_lt hfits)] at hdecode
    cases hdecode

/-- Settles O4: the row of what a fitting byte decodes to is the only one hit, and no other byte is decoded. -/
theorem decoderAgreesWithTheOpcodeTable : Obligations.DecoderAgreesWithTheOpcodeTable := by
  unfold Obligations.DecoderAgreesWithTheOpcodeTable
  refine fun fmt b => ⟨fun hfits => ?_, decode_of_not_fits⟩
  obtain ⟨i, hi, -, -, -, hrow⟩ := exists_standsFor_of_fits hfits
  exact ⟨i, hi, hrow⟩

/-- Settles O1, by evaluation of the decoder at the fourteen words. -/
theorem specWordsDecode : Obligations.SpecWordsDecode := by
  unfold Obligations.SpecWordsDecode
  decide

/-- Settles O7: each line's words are those of its equation in `Line.words`, and a frame is `frameLen = 32` ticks. -/
theorem streamLinesStandForTheirWords : Obligations.StreamLinesStandForTheirWords := by
  unfold Obligations.StreamLinesStandForTheirWords
  exact ⟨rfl, rfl, rfl, rfl, fun _ => rfl, fun _ => rfl, rfl, fun _ _ => rfl, fun _ => rfl⟩

end Sys2Proof.Machine
end

section
/-!
PROOFS. The step: which operation it runs for each delivered item, and what no step changes. The one inversion of a
completed tick, `execTick_next_cases`, serves the invariants after it.
-/

namespace Sys2Proof.Machine

/-! ### The step at each delivered item -/

theorem step_nil {s : State} (h : s.pending = []) : step s = .next (countOp (noWrite s)) :=
  step_of_command (takeEvent_nil h)

theorem step_timerOverflow {s : State} {rest : List Event} (h : s.pending = .timerOverflow :: rest) :
    step s = finishOp (exec (decodeCommand (firedCommand s)) { s with pending := rest }) :=
  step_of_command (takeEvent_timerOverflow h)

/-! ### What a completed tick can be -/

/-- The tick from position 30 writes `DUTY` and leaves `SR`; any other tick writes nothing. -/
theorem execTick_next_cases {s t : State} (h : execTick s = .next t) :
    ∃ fc x, s.fc = some fc ∧ s.sr = some x ∧
      ((fc = 30#5 ∧ t = commitFc 31#5 (dutyWrite (dutyMap x) s)) ∨
        (fc.toNat ≠ 30 ∧
          t = commitFc (inc5 fc) (writeSr (srAfterTick s.params.feedbackPolarity fc x) (noWrite s)))) := by
  obtain ⟨fc, x, -, hf, hx, -, -⟩ := execTick_next h
  refine ⟨fc, x, hf, hx, ?_⟩
  by_cases h30 : fc.toNat = 30
  · obtain rfl : fc = 30#5 := BitVec.eq_of_toNat_eq h30
    rw [← exec_tick, exec_tick_30 hf hx] at h
    exact .inl ⟨rfl, (Host.Outcome.next.inj h).symm⟩
  · rw [← exec_tick, exec_tick_of_ne_30 hf hx h30] at h
    exact .inr ⟨h30, (Host.Outcome.next.inj h).symm⟩

/-- The registers after a completed tick. -/
theorem execTick_next_registers {s t : State} (h : execTick s = .next t) :
    ∃ fc x, s.fc = some fc ∧ s.sr = some x ∧ t.fc = some (inc5 fc) ∧
      t.sr = some (srAfterTick s.params.feedbackPolarity fc x) := by
  obtain ⟨fc, x, _, hf, hx, rfl, rfl⟩ := execTick_next h
  exact ⟨fc, x, hf, hx, rfl, rfl⟩

theorem execTick_next_params {s t : State} (h : execTick s = .next t) : t.params = s.params := by
  obtain ⟨_, _, -, -, ⟨-, rfl⟩ | ⟨-, rfl⟩⟩ := execTick_next_cases h <;> rfl

/-- A tick that completes writes `DUTY` from position 30 only. -/
theorem execTick_next_duty_ne {s t : State} (h : execTick s = .next t) (hne : t.duty ≠ s.duty) :
    s.fc = some 30#5 ∧ ∃ x, s.sr = some x ∧ t = commitFc 31#5 (dutyWrite (dutyMap x) s) := by
  obtain ⟨_, x, hf, hx, ⟨rfl, rfl⟩ | ⟨-, rfl⟩⟩ := execTick_next_cases h
  · exact ⟨hf, x, hx, rfl⟩
  · exact absurd rfl hne

theorem step_next_params {s t : State} (h : step s = .next t) : t.params = s.params := by
  obtain ⟨rest, -, rfl⟩ | ⟨rest, rfl⟩ | ⟨rest, u, hu, rfl⟩ | ⟨rest, rfl⟩ := step_cases h
  · exact powerCycle_params _
  · rfl
  · have hparams := execTick_next_params hu
    exact hparams
  · rfl

/-! ### The obligations -/

/-- Settles O8: the step finishes the decoded operation, and `finishOp` counts it where it completes. -/
theorem stepRunsTheDeliveredCommand : Obligations.StepRunsTheDeliveredCommand := by
  unfold Obligations.StepRunsTheDeliveredCommand
  intro s cmd rest h
  rw [step_command h]
  cases exec (decodeCommand cmd) { s with pending := rest } with
  | next t => rfl
  | fault f => rfl
  | refused r => rfl

/-- Settles O9: the step with nothing pending is `step_nil`. -/
theorem stepWithNothingPendingHolds : Obligations.StepWithNothingPendingHolds := by
  unfold Obligations.StepWithNothingPendingHolds
  exact fun _ => step_nil

/-- Settles O10: the fired command is `TICK`, or, where it may be lost, `TICK` or `HOLD`. -/
theorem firedTickIsATickUnlessLost : Obligations.FiredTickIsATickUnlessLost := by
  unfold Obligations.FiredTickIsATickUnlessLost
  intro s rest h
  rw [step_timerOverflow h]
  refine ⟨fun hkept => ?kept, fun _ => ?lossy⟩
  case kept =>
    rw [firedCommand_of_no_loss hkept]
    rfl
  case lossy =>
    obtain hcmd | hcmd := firedCommand_cases s
    · rw [hcmd]
      exact .inl rfl
    · rw [hcmd]
      exact .inr rfl

/-- Settles O12: the step is `powerCycle` of the state with the item taken. -/
theorem powerCycleRestoresTheDutyResetValue : Obligations.PowerCycleRestoresTheDutyResetValue := by
  unfold Obligations.PowerCycleRestoresTheDutyResetValue
  exact fun _ _ h => ⟨_, step_powerCycle h, powerCycle_duty _, powerCycle_dutyPort _, powerCycle_params _,
    powerCycle_opIndex _, powerCycle_writes _⟩

/-- Settles O36, by the cases of a step. -/
theorem noStepChangesTheParameters : Obligations.NoStepChangesTheParameters := by
  unfold Obligations.NoStepChangesTheParameters
  exact fun _ _ => step_next_params

/-- Settles O54: of the four things a step can be, a power cycle and the tick from position 30 change `DUTY`. -/
theorem dutyKeepsTheLastValueWritten : Obligations.DutyKeepsTheLastValueWritten := by
  unfold Obligations.DutyKeepsTheLastValueWritten
  intro s t h hne
  obtain ⟨rest, hpending, rfl⟩ | ⟨rest, rfl⟩ | ⟨rest, u, hu, rfl⟩ | ⟨rest, rfl⟩ := step_cases h
  · exact .inr ⟨rest, hpending, powerCycle_duty _⟩
  · exact absurd rfl hne
  · obtain ⟨hf, x, hx, rfl⟩ := execTick_next_duty_ne hu hne
    exact .inl ⟨hf, rfl, x, hx, rfl, rfl⟩
  · exact absurd rfl hne

end Sys2Proof.Machine
end

section
/-!
PROOFS. Rules R106, R163, R48 and R162: the invariants over steps and runs. Each holds at reset and at power-on, and each
of the four things a step can be (`step_cases`) keeps it.
-/

namespace Sys2Proof.Machine

open Sys2Proof.Config

/-! ### Bit 31 of `SR` -/

/-- An open gate clears bit 31, a closed one keeps the word. -/
theorem srAfterTick_cases (pol : FeedbackPolarity) (fc : FramePos) (x : SrWord) :
    (srAfterTick pol fc x).getLsbD 31 = false ∨ (gate (inc5 fc) x = false ∧ srAfterTick pol fc x = x) := by
  unfold srAfterTick
  split
  · exact .inl (lfsrStep_getLsbD_31 pol x)
  · next hclosed => exact .inr ⟨Bool.eq_false_iff.2 hclosed, rfl⟩

theorem srAfterTick_getLsbD_31 {x : SrWord} (hx : x.getLsbD 31 = false) (pol : FeedbackPolarity) (fc : FramePos) :
    (srAfterTick pol fc x).getLsbD 31 = false := by
  obtain h | ⟨-, h⟩ := srAfterTick_cases pol fc x
  · exact h
  · rwa [h]

theorem step_next_topBitClear {s t : State} (hs : TopBitClear s) (h : step s = .next t) : TopBitClear t := by
  obtain ⟨hseed, hsr⟩ := hs
  refine ⟨by rwa [step_next_params h], fun y hy => ?_⟩
  obtain ⟨rest, -, rfl⟩ | ⟨rest, rfl⟩ | ⟨rest, u, hu, rfl⟩ | ⟨rest, rfl⟩ := step_cases h
  · cases hy
  · exact hsr y hy
  · obtain ⟨fc, x, -, hx, -, hux⟩ := execTick_next_registers hu
    obtain rfl := Option.some.inj (hux.symm.trans hy)
    exact srAfterTick_getLsbD_31 (hsr x hx) _ fc
  · obtain rfl := Option.some.inj hy
    exact hseed

/-- The only step from the low positions to the others lands on position 8, where a zero gate field opens the gate. -/
theorem srAfterTick_behind_closed_gate {fc : FramePos} {x : SrWord}
    (h : x.getLsbD 31 = true → fc.toNat ≤ 7 ∨ x &&& 0x0000000C#32 ≠ 0#32) (pol : FeedbackPolarity)
    (htop : (srAfterTick pol fc x).getLsbD 31 = true) :
    (inc5 fc).toNat ≤ 7 ∨ srAfterTick pol fc x &&& 0x0000000C#32 ≠ 0#32 := by
  obtain hclear | ⟨hclosed, hkeep⟩ := srAfterTick_cases pol fc x
  · rw [hclear] at htop
    cases htop
  rw [hkeep] at htop ⊢
  by_cases hfield : x &&& 0x0000000C#32 = 0#32
  · have hlow : fc.toNat ≤ 7 := (h htop).resolve_right (not_not.2 hfield)
    have hmod : (inc5 fc).toNat % 8 ≠ 0 := fun hmod => by
      have hopen := (gate_eq_true_iff (inc5 fc) x).2 (.inr ⟨hmod, (and_gateFieldMask_eq_zero_iff x).1 hfield⟩)
      rw [hclosed] at hopen
      cases hopen
    rw [inc5_toNat] at hmod ⊢
    omega
  · exact .inr hfield

theorem step_next_topBitOnlyBehindClosedGate {s t : State} (hs : TopBitOnlyBehindClosedGate s)
    (h : step s = .next t) : TopBitOnlyBehindClosedGate t := by
  intro fc' y hfc' hy htop
  obtain ⟨rest, -, rfl⟩ | ⟨rest, rfl⟩ | ⟨rest, u, hu, rfl⟩ | ⟨rest, rfl⟩ := step_cases h
  · cases hy
  · exact hs fc' y hfc' hy htop
  · obtain ⟨fc, x, hf, hx, huf, hux⟩ := execTick_next_registers hu
    obtain rfl := Option.some.inj (huf.symm.trans hfc')
    obtain rfl := Option.some.inj (hux.symm.trans hy)
    exact srAfterTick_behind_closed_gate (hs fc x hf hx) _ htop
  · obtain rfl := Option.some.inj hfc'
    exact .inl (Nat.zero_le _)

/-! ### The observation -/

theorem dutyMap_extractLsb'_low (x : SrWord) : (dutyMap x).extractLsb' 0 4 = 0xF#4 := by
  apply BitVec.eq_of_toNat_eq
  rw [BitVec.extractLsb'_toNat, Nat.shiftRight_zero]
  exact dutyMap_toNat_mod_16 x

theorem observationWf_of_nothing_observed {s : State} (hwrites : s.writes = []) (hport : s.dutyPort = none) :
    ObservationWf s := by
  unfold ObservationWf
  rw [hwrites, hport]
  exact ⟨nofun, .nil, nofun⟩

/-- Without a write the list stays, and its indexes stay below a count that does not fall. -/
theorem observationWf_of_no_write {s t : State} (hs : ObservationWf s) (hwrites : t.writes = s.writes)
    (hport : t.dutyPort = none) (hindex : s.opIndex ≤ t.opIndex) : ObservationWf t := by
  obtain ⟨hbelow, hrising, -⟩ := hs
  unfold ObservationWf
  rw [hwrites, hport]
  refine ⟨fun e he => ?_, hrising, nofun⟩
  obtain ⟨hlt, hvalue⟩ := hbelow e he
  exact ⟨hlt.trans_le hindex, hvalue⟩

/-- A write at the current index stands behind every write before it. -/
theorem observationWf_countOp_dutyWrite {s : State} (hs : ObservationWf s) {v : Byte}
    (hv : v.extractLsb' 0 4 = 0xF#4) : ObservationWf (countOp (dutyWrite v s)) := by
  obtain ⟨hbelow, hrising, -⟩ := hs
  refine ⟨fun e he => ?below, List.pairwise_append.2 ⟨hrising, List.pairwise_singleton .., ?rising⟩, ?port⟩
  case below =>
    obtain he | he := List.mem_append.1 he
    · obtain ⟨hlt, hvalue⟩ := hbelow e he
      exact ⟨Nat.lt_succ_of_lt hlt, hvalue⟩
    · obtain rfl := List.mem_singleton.1 he
      exact ⟨Nat.lt_succ_self _, hv⟩
  case rising =>
    intro a ha b hb
    obtain rfl := List.mem_singleton.1 hb
    exact (hbelow a ha).1
  case port =>
    intro w hw
    obtain rfl := Option.some.inj hw
    exact ⟨rfl, ⟨s.opIndex, v⟩, List.getLast?_concat, rfl, rfl⟩

theorem step_next_observationWf {s t : State} (hs : ObservationWf s) (h : step s = .next t) : ObservationWf t := by
  obtain ⟨rest, -, rfl⟩ | ⟨rest, rfl⟩ | ⟨rest, u, hu, rfl⟩ | ⟨rest, rfl⟩ := step_cases h
  · exact observationWf_of_no_write hs rfl rfl le_rfl
  · exact observationWf_of_no_write hs rfl rfl (Nat.le_succ _)
  · obtain ⟨fc, x, -, -, ⟨-, rfl⟩ | ⟨-, rfl⟩⟩ := execTick_next_cases hu
    · have hpending : ObservationWf { s with pending := rest } := hs
      exact observationWf_countOp_dutyWrite hpending (dutyMap_extractLsb'_low x)
    · exact observationWf_of_no_write hs rfl rfl (Nat.le_succ _)
  · exact observationWf_of_no_write hs rfl rfl (Nat.le_succ _)

/-! ### The startup contract -/

theorem holdsValues_iff (s : State) : HoldsValues s ↔ (s.fc.isSome && s.sr.isSome) = true := by
  rw [HoldsValues, Bool.and_eq_true]

/-- Where the registers hold values, the contract asks only what it asks of a machine that has been reset. -/
theorem booted_of_holdsValues {s : State} (hs : HoldsValues s) (h : bootOk true s.pending = true) : Booted s := by
  rwa [Booted, (holdsValues_iff s).1 hs]

theorem execTick_next_pending {s t : State} (h : execTick s = .next t) : t.pending = s.pending := by
  obtain ⟨_, _, -, -, ⟨-, rfl⟩ | ⟨-, rfl⟩⟩ := execTick_next_cases h <;> rfl

/-- A command the contract allows completes, and what is still to be delivered keeps the contract. -/
theorem exec_command_booted {s : State} {cmd : CmdWord}
    (h : bootOk (s.fc.isSome && s.sr.isSome) (.command cmd :: s.pending) = true) :
    ∃ t, exec (decodeCommand cmd) s = .next t ∧ Booted (countOp t) := by
  unfold bootOk at h
  unfold decodeCommand
  split_ifs at h ⊢
  · exact ⟨_, exec_hold s, h⟩
  · rw [Bool.and_eq_true] at h
    obtain ⟨hheld, hrest⟩ := h
    rw [hheld] at hrest
    have hs := (holdsValues_iff s).2 hheld
    obtain ⟨t, ht⟩ : ∃ t, execTick s = .next t := inTick_completes hs _
    have hvalues := execTick_next_holdsValues hs ht
    rw [← execTick_next_pending ht] at hrest
    exact ⟨t, ht, booted_of_holdsValues (s := countOp t) hvalues hrest⟩
  · exact ⟨_, exec_reset s cmd, h⟩

/-- A fired tick is delivered under the contract only where a `TICK` may be, and there a `HOLD` may be too. -/
theorem bootOk_firedCommand {held : Bool} {rest : List Event} (h : bootOk held (.timerOverflow :: rest) = true)
    (s : State) : bootOk held (.command (firedCommand s) :: rest) = true := by
  obtain hcmd | hcmd := firedCommand_cases s
  · rw [hcmd]
    exact h
  · rw [hcmd]
    exact (Bool.and_eq_true _ _ ▸ h).2

theorem step_booted {s : State} (h : Booted s) : ∃ t, step s = .next t ∧ Booted t := by
  unfold Booted at h
  cases hpending : s.pending with
  | nil =>
    refine ⟨_, step_nil hpending, ?_⟩
    simp [Booted, hpending, bootOk]
  | cons e rest =>
    rw [hpending] at h
    cases e with
    | command cmd =>
      obtain ⟨t, ht, hbooted⟩ := exec_command_booted (s := { s with pending := rest }) h
      exact ⟨_, by rw [step_command hpending, ht, finishOp_next], hbooted⟩
    | timerOverflow =>
      obtain ⟨t, ht, hbooted⟩ := exec_command_booted (s := { s with pending := rest }) (bootOk_firedCommand h s)
      exact ⟨_, by rw [step_timerOverflow hpending, ht, finishOp_next], hbooted⟩
    | powerCycle => exact ⟨_, step_powerCycle hpending, h⟩

/-! ### The obligations -/

/-- Settles O55: the shift clears bit 31, and `RESET` writes the seed, whose bit 31 is clear. -/
theorem topBitStaysClear : Obligations.TopBitStaysClear := by
  unfold Obligations.TopBitStaysClear
  exact ⟨lfsrStep_getLsbD_31, fun _ _ => step_next_topBitClear⟩

/-- Settles O56: a tick that opens the gate clears bit 31, and at position 8 the gate is closed only where the field is
not zero. -/
theorem topBitNeverPassesAnOpenGate : Obligations.TopBitNeverPassesAnOpenGate := by
  unfold Obligations.TopBitNeverPassesAnOpenGate
  refine ⟨fun _ _ => step_next_topBitOnlyBehindClosedGate, ?_⟩
  rintro s hs ⟨x, hf, hx, htop, hfield⟩
  have hmask : x &&& 0x0000000C#32 = 0#32 :=
    (and_gateFieldMask_eq_zero_iff x).2 ((gateField_eq_zero_iff x).1 hfield)
  obtain hlow | hblocked := hs 8#5 x hf hx htop
  · exact absurd hlow (by decide)
  · exact hblocked hmask

/-- Settles O58: only the tick from position 30 writes, at the current index and a value of `DutyMap`. -/
theorem stepKeepsTheObservationWellKept : Obligations.StepKeepsTheObservationWellKept := by
  unfold Obligations.StepKeepsTheObservationWellKept
  exact fun _ _ => step_next_observationWf

/-- Settles O59: nothing has been observed or is pending, and `SR` is the seed 0 at position 0 or holds no value. -/
theorem invariantsHoldAtTheStart : Obligations.InvariantsHoldAtTheStart := by
  unfold Obligations.InvariantsHoldAtTheStart
  refine ⟨observationWf_of_nothing_observed rfl rfl, ?behind, ⟨rfl, ?clear⟩, rfl, fun p =>
    ⟨observationWf_of_nothing_observed rfl rfl, nofun, rfl, fun hseed => ⟨hseed, nofun⟩⟩⟩
  case behind =>
    intro fc x hf _ _
    obtain rfl := Option.some.inj hf
    exact .inl (Nat.zero_le _)
  case clear =>
    intro x hx
    obtain rfl := Option.some.inj hx
    rfl

/-- Settles O60, by induction on the number of steps. -/
theorem bootedRunsNeverStop : Obligations.BootedRunsNeverStop := by
  unfold Obligations.BootedRunsNeverStop
  intro n
  induction n with
  | zero => exact fun s hs => ⟨s, rfl, hs⟩
  | succ n ih =>
    intro s hs
    obtain ⟨t, ht, hbooted⟩ := step_booted hs
    rw [run_succ_of_step ht]
    exact ih t hbooted

end Sys2Proof.Machine
end

section
/-!
PROOFS. The selection rows as operations (log entry 1): which shared action each row is, what each action gives where the
registers hold values, and that a tick is the row its position selects.
-/

namespace Sys2Proof.Machine

open Sys2Proof.Config

/-! ### The shared actions where the registers hold values -/

/-- Two bodies that agree on the values in the registers are one action. -/
theorem inTick_congr {s : State} {body body' : FramePos → SrWord → State}
    (h : ∀ fc x, s.fc = some fc → s.sr = some x → body fc x = body' fc x) : inTick s body = inTick s body' := by
  unfold inTick
  split
  · next fc x hf hx => rw [h fc x hf hx]
  · rfl

theorem gateField_eq_zero_iff_mask (x : SrWord) : gateField x = 0b00#2 ↔ x &&& 0x0000000C#32 = 0#32 :=
  (gateField_eq_zero_iff x).trans (and_gateFieldMask_eq_zero_iff x).symm

theorem inTick_congr_of_sr {s : State} {x : SrWord} (hx : s.sr = some x) {body body' : FramePos → SrWord → State}
    (h : ∀ fc, body fc x = body' fc x) : inTick s body = inTick s body' := by
  refine inTick_congr fun fc y _ hy => ?_
  obtain rfl := Option.some.inj (hx.symm.trans hy)
  exact h fc

/-- A conditional advance writes `SR` either way: the advanced word, or the word it holds. -/
theorem advanceIf_eq_inTick (s : State) : advanceIf s = inTick s fun _ x =>
    noWrite (writeSr (if x &&& 0x0000000C#32 = 0#32 then lfsrStep s.params.feedbackPolarity x else x) s) := by
  refine inTick_congr fun _ x _ hx => ?_
  simp only [gateField_eq_zero_iff_mask]
  split
  · rfl
  · rw [writeSr_eq_self hx]

section Values

variable {s : State} {fc : FramePos} {x : SrWord} (hf : s.fc = some fc) (hx : s.sr = some x)
include hf hx

theorem advance_of_values : advance s = .next (noWrite (writeSr (lfsrStep s.params.feedbackPolarity x) s)) :=
  inTick_of_values hf hx _

theorem advanceIf_of_values : advanceIf s = .next (noWrite (writeSr
    (if x &&& 0x0000000C#32 = 0#32 then lfsrStep s.params.feedbackPolarity x else x) s)) := by
  rw [advanceIf_eq_inTick, inTick_of_values hf hx]

theorem stay_of_values : stay s = .next (noWrite s) := inTick_of_values hf hx _

end Values

theorem exists_fc_of_holdsValues {s : State} (hs : HoldsValues s) : ∃ fc, s.fc = some fc :=
  Option.isSome_iff_exists.1 hs.1

/-! ### The action of each row -/

theorem exec_eq_advance (s : State) : ∀ i ∈ [Instr.fpAdvance, .gatePass], exec i s = advance s := by
  simp

theorem exec_eq_advanceIf (s : State) :
    ∀ i ∈ [Instr.fpAdvanceIf08, .fpAdvanceIf16, .fpAdvanceIf24], exec i s = advanceIf s := by
  simp

theorem exec_eq_stay (s : State) (pos : FramePos) (g : BitVec 2) :
    ∀ i ∈ [Instr.fpIdleL1 pos, .fpIdleL2 pos, .fpIdleL3 pos, .fpIdleL4 pos, .fpIdleL5 pos, .fpIdleL6 pos, .fpIdle07,
      .fpIdle15, .fpIdle23, .gateBlockB2 g, .gateBlockB3], exec i s = stay s := by
  simp

/-- A row that may write `SR` writes a function of it, and nothing else. -/
theorem exec_eq_inTick_writeSr (s : State) :
    ∀ i ∈ [Instr.fpAdvance, .fpAdvanceIf08, .fpAdvanceIf16, .fpAdvanceIf24, .lfsrShift, .lfsrShiftXor, .gatePass],
      ∃ f : SrWord → SrWord, exec i s = inTick s fun _ x => noWrite (writeSr (f x) s) := by
  simp only [List.forall_mem_cons]
  exact ⟨⟨lfsrStep s.params.feedbackPolarity, rfl⟩, ⟨_, advanceIf_eq_inTick s⟩, ⟨_, advanceIf_eq_inTick s⟩,
    ⟨_, advanceIf_eq_inTick s⟩, ⟨fun x => x >>> 1, rfl⟩, ⟨fun x => (x >>> 1) ^^^ feedback, rfl⟩,
    ⟨lfsrStep s.params.feedbackPolarity, rfl⟩, nofun⟩

/-- An emitting row performs the duty write of a function of `SR`. -/
theorem exec_eq_inTick_dutyWrite (s : State) : ∀ i ∈ [Instr.fpEmit, .dutyFull, .dutyNibble],
    ∃ f : SrWord → Byte, exec i s = inTick s fun _ x => dutyWrite (f x) s := by
  simp only [List.forall_mem_cons]
  exact ⟨⟨dutyMap, rfl⟩, ⟨fun _ => Config.dutyFull, rfl⟩, ⟨fun x => dimValue (nibble x), rfl⟩, nofun⟩

/-- Only commands complete where a register holds no value. -/
theorem exec_fault_iff {i : Instr} (hi : i.format ≠ .ifaceCmd) (s : State) :
    exec i s = .fault .tickBeforeReset ↔ s.fc = none ∨ s.sr = none := by
  obtain rfl | ⟨cmd, rfl⟩ | ⟨-, -, body, hbody⟩ := exec_shape s i
  · exact absurd rfl hi
  · exact absurd rfl hi
  · rw [hbody]
    exact inTick_fault_iff

/-! ### The rows that the fields of `SR` select -/

/-- The LFSR row of a branch bit shifts, and XORs the constant in where the bit is 1. -/
theorem exec_decodeLfsr (b : BitVec 1) (s : State) : exec (decodeLfsr b) s =
    inTick s fun _ x => noWrite (writeSr ((x >>> 1) ^^^ feedbackWhen (b == 1#1)) s) := by
  unfold decodeLfsr
  split
  · next h =>
    rw [h]
    rfl
  · next h =>
    rw [beq_false_of_ne h]
    simp only [feedbackWhen_false, BitVec.xor_zero]
    rfl

theorem exec_decodeGate (g : BitVec 2) (s : State) :
    exec (decodeGate g) s = if g = 0b00#2 then advance s else stay s := by
  unfold decodeGate
  split_ifs <;> rfl

theorem exec_decodeDuty (d : BitVec 1) (s : State) : exec (decodeDuty d) s =
    inTick s fun _ x => dutyWrite (if d = 1#1 then Config.dutyFull else dimValue (nibble x)) s := by
  unfold decodeDuty
  split <;> rfl

/-- An advance is the LFSR row of any bit that is 1 exactly where the polarity applies the constant. -/
theorem advance_eq_exec_decodeLfsr {s : State} {x : SrWord} (hx : s.sr = some x) {b : BitVec 1}
    (hb : applyFeedback s.params.feedbackPolarity x = (b == 1#1)) : advance s = exec (decodeLfsr b) s := by
  rw [exec_decodeLfsr]
  exact inTick_congr_of_sr hx fun _ => by rw [lfsrStep_eq_xor, hb]

theorem beq_zero_eq_not_beq_one : ∀ b : BitVec 1, (b == 0#1) = (~~~b == 1#1) := by
  decide

theorem advanceIf_eq_exec_decodeGate {s : State} {x : SrWord} (hx : s.sr = some x) :
    advanceIf s = exec (decodeGate (gateField x)) s := by
  rw [exec_decodeGate]
  split
  · next h => exact inTick_congr_of_sr hx fun _ => by rw [if_pos h]
  · next h => exact inTick_congr_of_sr hx fun _ => by rw [if_neg h]

theorem fpEmit_eq_exec_decodeDuty {s : State} {x : SrWord} (hx : s.sr = some x) :
    exec .fpEmit s = exec (decodeDuty (dutySel x)) s := by
  rw [exec_decodeDuty]
  exact inTick_congr_of_sr hx fun _ => rfl

theorem dimValue_eq_append : ∀ n : BitVec 4, dimValue n = n ++ 0b1111#4 := by
  decide

/-! ### The rows that the frame position selects -/

theorem decodePolicy_mem_conditional : ∀ pos : FramePos, pos ≠ 0#5 → pos.toNat % 8 = 0 →
    decodePolicy pos ∈ [Instr.fpAdvanceIf08, .fpAdvanceIf16, .fpAdvanceIf24] := by
  decide

theorem decodePolicy_mem_idle : ∀ pos : FramePos, pos ≠ emitPos → pos.toNat % 8 ≠ 0 →
    decodePolicy pos ∈ [Instr.fpIdleL1 pos, .fpIdleL2 pos, .fpIdleL3 pos, .fpIdleL4 pos, .fpIdleL5 pos, .fpIdleL6 pos,
      .fpIdle07, .fpIdle15, .fpIdle23, .gateBlockB2 0b01, .gateBlockB3] := by
  decide

theorem decodePolicy_format (pos : FramePos) : (decodePolicy pos).format = .framePolicy :=
  (standsFor_decodePolicy pos).2.2.1

/-- At the positions 8, 16 and 24 the tick's advance is the conditional one. -/
theorem srAfterTick_of_mod_eq_zero {fc : FramePos} (hne : inc5 fc ≠ 0#5) (hmod : (inc5 fc).toNat % 8 = 0)
    (pol : FeedbackPolarity) (x : SrWord) :
    srAfterTick pol fc x = if x &&& 0x0000000C#32 = 0#32 then lfsrStep pol x else x := by
  have hpos : (inc5 fc).toNat ≠ 0 := fun h => hne (BitVec.eq_of_toNat_eq h)
  have hgate : gate (inc5 fc) x = true ↔ x &&& 0x0000000C#32 = 0#32 := by
    rw [gate_eq_true_iff, and_gateFieldMask_eq_zero_iff]
    tauto
  rw [srAfterTick]
  simp only [hgate]

theorem srAfterTick_of_mod_ne_zero {fc : FramePos} (hmod : (inc5 fc).toNat % 8 ≠ 0) (pol : FeedbackPolarity)
    (x : SrWord) : srAfterTick pol fc x = x := by
  rw [srAfterTick, gate_eq_false_of_mod_ne_zero hmod, if_neg Bool.false_ne_true]

/-- The row of the position a tick lands on does what the tick does before its commit. -/
theorem exec_decodePolicy_of_values {s : State} {fc : FramePos} {x : SrWord} (hf : s.fc = some fc)
    (hx : s.sr = some x) : exec (decodePolicy (inc5 fc)) s =
      .next (writeSr (srAfterTick s.params.feedbackPolarity fc x)
        (emit (inc5 fc) (srAfterTick s.params.feedbackPolarity fc x) s)) := by
  by_cases hstart : inc5 fc = 0#5
  · rw [srAfterTick, hstart]
    exact advance_of_values hf hx
  by_cases hemit : inc5 fc = emitPos
  · have hkeep : srAfterTick s.params.feedbackPolarity fc x = x := by
      rw [srAfterTick, hemit, gate_emitPos, if_neg Bool.false_ne_true]
    have hsr : (dutyWrite (dutyMap x) s).sr = some x := hx
    rw [hkeep, hemit, emit_emitPos, writeSr_eq_self hsr]
    exact inTick_of_values hf hx _
  rw [emit_of_ne hemit]
  by_cases hmod : (inc5 fc).toNat % 8 = 0
  · rw [exec_eq_advanceIf s _ (decodePolicy_mem_conditional _ hstart hmod), advanceIf_of_values hf hx,
      srAfterTick_of_mod_eq_zero hstart hmod]
    rfl
  · have hsr : (noWrite s).sr = some x := hx
    rw [exec_eq_stay s _ _ _ (decodePolicy_mem_idle _ hemit hmod), stay_of_values hf hx,
      srAfterTick_of_mod_ne_zero hmod, writeSr_eq_self hsr]

/-! ### The obligations: the tick and the rows it selects -/

/-- Settles O21: the gate opens at multiples of 8 only, and the tick from position 30 is `exec_tick_30`. -/
theorem dutyComesFromTheStartingShiftRegister : Obligations.DutyComesFromTheStartingShiftRegister := by
  unfold Obligations.DutyComesFromTheStartingShiftRegister
  refine ⟨fun fc1 x hopen => ?_, fun s x hf hx => ⟨_, exec_tick_30 hf hx, hx, rfl⟩⟩
  rw [gate_eq_true_iff] at hopen
  omega

/-- Settles O22: where the registers hold values the row is the tick before its commit, and elsewhere both fault. -/
theorem tickRunsTheSelectedPolicyRow : Obligations.TickRunsTheSelectedPolicyRow := by
  unfold Obligations.TickRunsTheSelectedPolicyRow
  intro s fc hf
  cases hx : s.sr with
  | some x =>
    rw [exec_tick_of_values hf hx, exec_decodePolicy_of_values hf hx]
    rfl
  | none =>
    have hformat : (decodePolicy (inc5 fc)).format ≠ .ifaceCmd := by
      rw [decodePolicy_format]
      exact nofun
    rw [exec_tick_fault_iff.2 (.inr hx), (exec_fault_iff hformat s).2 (.inr hx)]

/-- Settles O23: each selecting row and the row selected are one body on the `SR` the state holds. -/
theorem rowsRunTheRowsTheySelect : Obligations.RowsRunTheRowsTheySelect := by
  unfold Obligations.RowsRunTheRowsTheySelect
  intro s x hx
  refine ⟨fun i hi => ⟨fun hpol => ?onOne, fun hpol => ?onZero⟩, fun i hi => ?gate, fpEmit_eq_exec_decodeDuty hx⟩
  case onOne =>
    rw [exec_eq_advance s i hi]
    refine advance_eq_exec_decodeLfsr hx ?_
    rw [hpol]
    rfl
  case onZero =>
    rw [exec_eq_advance s i hi]
    refine advance_eq_exec_decodeLfsr hx ?_
    rw [hpol]
    exact beq_zero_eq_not_beq_one (b0 x)
  case gate =>
    rw [exec_eq_advanceIf s i hi]
    exact advanceIf_eq_exec_decodeGate hx

/-! ### The obligations: what each row gives -/

/-- Settles O24: both rows are `advance`. -/
theorem advancingRowsStepTheLfsr : Obligations.AdvancingRowsStepTheLfsr := by
  unfold Obligations.AdvancingRowsStepTheLfsr
  intro s x hs hx i hi
  obtain ⟨fc, hf⟩ := exists_fc_of_holdsValues hs
  rw [exec_eq_advance s i hi]
  exact advance_of_values hf hx

/-- Settles O25: the three rows are `advanceIf`. -/
theorem conditionalRowsStepTheLfsrOnZeroGateField : Obligations.ConditionalRowsStepTheLfsrOnZeroGateField := by
  unfold Obligations.ConditionalRowsStepTheLfsrOnZeroGateField
  intro s x hs hx i hi
  obtain ⟨fc, hf⟩ := exists_fc_of_holdsValues hs
  rw [exec_eq_advanceIf s i hi]
  exact advanceIf_of_values hf hx

/-- Settles O26: the eleven rows are `stay`. -/
theorem idleAndBlockingRowsChangeNothing : Obligations.IdleAndBlockingRowsChangeNothing := by
  unfold Obligations.IdleAndBlockingRowsChangeNothing
  intro s hs pos g i hi
  obtain ⟨fc, hf⟩ := exists_fc_of_holdsValues hs
  obtain ⟨x, hx⟩ := Option.isSome_iff_exists.1 hs.2
  rw [exec_eq_stay s pos g i hi]
  exact stay_of_values hf hx

/-- Settles O27: each row is its body at the `SR` the state holds. -/
theorem lfsrRowsShift : Obligations.LfsrRowsShift := by
  unfold Obligations.LfsrRowsShift
  intro s x hs hx
  obtain ⟨fc, hf⟩ := exists_fc_of_holdsValues hs
  exact ⟨inTick_of_values hf hx _, inTick_of_values hf hx _⟩

/-- Settles O28: each row is its body at the `SR` the state holds, and the dim value is the nibble over `0b1111`. -/
theorem emittingRowsWriteDuty : Obligations.EmittingRowsWriteDuty := by
  unfold Obligations.EmittingRowsWriteDuty
  intro s x hs hx
  obtain ⟨fc, hf⟩ := exists_fc_of_holdsValues hs
  refine ⟨inTick_of_values hf hx _, inTick_of_values hf hx _, ?_⟩
  rw [exec_dutyNibble, inTick_of_values hf hx, dimValue_eq_append]
  rfl

/-- Settles O30: a row is a body run through the entry of a tick. -/
theorem selectedRowsStopWhereTheTickDoes : Obligations.SelectedRowsStopWhereTheTickDoes := by
  unfold Obligations.SelectedRowsStopWhereTheTickDoes
  exact fun _ s hi => exec_fault_iff hi s

/-! ### The obligations: frames -/

/-- Settles O32: a completed row is `writeSr` of some word, then `noWrite`. -/
theorem shiftRegisterRowsFrame : Obligations.ShiftRegisterRowsFrame := by
  unfold Obligations.ShiftRegisterRowsFrame
  intro i hi s t h
  obtain ⟨f, hrow⟩ := exec_eq_inTick_writeSr s i hi
  rw [hrow] at h
  obtain ⟨fc, x, -, -, rfl⟩ := inTick_next h
  exact ⟨rfl, rfl, rfl, rfl, rfl, rfl⟩

/-- Settles O33: a completed row is `noWrite`. -/
theorem idleRowsFrame : Obligations.IdleRowsFrame := by
  unfold Obligations.IdleRowsFrame
  intro pos g i hi s t h
  rw [exec_eq_stay s pos g i hi] at h
  obtain ⟨fc, x, -, -, rfl⟩ := stay_next h
  exact ⟨rfl, rfl, rfl, rfl, rfl, rfl, rfl⟩

/-- Settles O34: a completed row is `dutyWrite` of some value. -/
theorem emittingRowsFrame : Obligations.EmittingRowsFrame := by
  unfold Obligations.EmittingRowsFrame
  intro i hi s t h
  obtain ⟨f, hrow⟩ := exec_eq_inTick_dutyWrite s i hi
  rw [hrow] at h
  obtain ⟨fc, x, -, -, rfl⟩ := inTick_next h
  exact ⟨rfl, rfl, rfl, rfl, rfl⟩

/-- Settles O35: `HOLD` and `RESET` by their equations, `TICK` by its two shapes. -/
theorem commandsFrame : Obligations.CommandsFrame := by
  unfold Obligations.CommandsFrame
  refine ⟨fun s t h => ?hold, fun cmd s t h => ?reset, fun s t h => ?tick⟩
  case hold =>
    obtain rfl := Host.Outcome.next.inj h
    exact ⟨rfl, rfl, rfl, rfl, rfl, rfl, rfl⟩
  case reset =>
    obtain rfl := Host.Outcome.next.inj h
    exact ⟨rfl, rfl, rfl, rfl, rfl⟩
  case tick =>
    obtain ⟨fc, x, hf, hx, ⟨-, rfl⟩ | ⟨-, rfl⟩⟩ := execTick_next_cases h
    · exact ⟨rfl, rfl, rfl, fun hne => absurd rfl hne, fun _ _ _ _ _ => rfl⟩
    · refine ⟨rfl, rfl, rfl, fun _ => ⟨rfl, rfl⟩, fun fc1 y hfc1 hy hclosed => ?_⟩
      obtain rfl := Option.some.inj hfc1
      obtain rfl := Option.some.inj (hx.symm.trans hy)
      rw [commitFc_sr, writeSr_sr, srAfterTick, hclosed, hx, if_neg Bool.false_ne_true]

end Sys2Proof.Machine
end

section
/-!
PROOFS. Rules R89 and R163: what a frame of ticks does to `DUTY` and `SR`, and the states a reset and a few ticks reach.
-/

namespace Sys2Proof.Machine

open Sys2Proof.Config

/-! ### One counted tick, again -/

section Tick

variable {s : State} {fc : FramePos} {x : SrWord} (hf : s.fc = some fc) (hx : s.sr = some x)
include hf hx

theorem tickOnce_opIndex : (tickOnce s).opIndex = s.opIndex + 1 := by
  rw [tickOnce_of_values hf hx, countOp_opIndex, commitFc_opIndex, writeSr_opIndex]
  unfold emit
  split <;> rfl

/-- A tick that does not start at position 30 leaves the observation and `DUTY`. -/
theorem tickOnce_of_ne_30 (h : fc.toNat ≠ 30) : (tickOnce s).writes = s.writes ∧ (tickOnce s).duty = s.duty := by
  rw [tickOnce, ← exec_tick, exec_tick_of_ne_30 hf hx h]
  exact ⟨rfl, rfl⟩

/-- The tick that starts at position 30 adds one write to the observation, and `DUTY` holds its value. -/
theorem tickOnce_of_eq_30 (h : fc.toNat = 30) :
    ∃ v, (tickOnce s).writes = s.writes ++ [⟨s.opIndex, v⟩] ∧ (tickOnce s).duty = some v := by
  rw [tickOnce, ← exec_tick, exec_tick_of_eq_30 hf hx h]
  exact ⟨_, rfl, rfl⟩

end Tick

/-! ### Iterated ticks -/

section Iterate

variable {s : State} {fc : FramePos} {x : SrWord} (hf : s.fc = some fc) (hx : s.sr = some x)
include hf hx

theorem iterate_tickOnce_opIndex (n : Nat) : (tickOnce^[n] s).opIndex = s.opIndex + n := by
  induction n with
  | zero => rfl
  | succ n ih =>
    obtain ⟨hfc, ⟨y, hy⟩, -⟩ := iterate_tickOnce_registers hf hx n
    rw [Function.iterate_succ_apply', tickOnce_opIndex hfc hy, ih, Nat.add_assoc]

/-- While no tick starts at position 30, the observation and `DUTY` stay. -/
theorem iterate_tickOnce_of_ne_30 {n : Nat} (hne : ∀ k < n, (fc.toNat + k) % 32 ≠ 30) :
    (tickOnce^[n] s).writes = s.writes ∧ (tickOnce^[n] s).duty = s.duty := by
  induction n with
  | zero => exact ⟨rfl, rfl⟩
  | succ n ih =>
    obtain ⟨hfc, ⟨y, hy⟩, -⟩ := iterate_tickOnce_registers hf hx n
    obtain ⟨hwrites, hduty⟩ := ih fun k hk => hne k (by omega)
    have hpos : (fc + BitVec.ofNat 5 n).toNat ≠ 30 := by simpa using hne n (by omega)
    obtain ⟨hwrites', hduty'⟩ := tickOnce_of_ne_30 hfc hy hpos
    rw [Function.iterate_succ_apply']
    exact ⟨hwrites'.trans hwrites, hduty'.trans hduty⟩

/-- Of `n` ticks from `fc`, those that land on a multiple of 32 advance, and no others than those that land on a
multiple of 8 do. -/
theorem iterate_tickOnce_advances (n : Nat) :
    ∃ k, (tickOnce^[n] s).sr = some ((lfsrStep s.params.feedbackPolarity)^[k] x) ∧
      (fc.toNat + n) / 32 ≤ k ∧ k + fc.toNat / 8 ≤ (fc.toNat + n) / 8 := by
  have hlt : fc.toNat < 32 := fc.isLt
  induction n with
  | zero => exact ⟨0, hx, by omega, by omega⟩
  | succ n ih =>
    obtain ⟨k, hsr, hlow, hhigh⟩ := ih
    obtain ⟨hfc, -, hparams⟩ := iterate_tickOnce_registers hf hx n
    have hpos : (inc5 (fc + BitVec.ofNat 5 n)).toNat = (fc.toNat + (n + 1)) % 32 := by
      rw [inc5_toNat, BitVec.toNat_add, BitVec.toNat_ofNat]
      omega
    rw [Function.iterate_succ_apply', tickOnce_sr hfc hsr, hparams, srAfterTick]
    split
    · next hopen =>
      rw [gate_eq_true_iff, hpos] at hopen
      exact ⟨k + 1, by rw [Function.iterate_succ_apply'], by omega, by omega⟩
    · next hclosed =>
      rw [gate_eq_true_iff, hpos] at hclosed
      exact ⟨k, rfl, by omega, by omega⟩

/-- Any 32 ticks write once, at the tick that starts at position 30, and the value stays in `DUTY`. -/
theorem iterate_tickOnce_32_writes :
    ∃ v, (tickOnce^[32] s).writes = s.writes ++ [⟨s.opIndex + (62 - fc.toNat) % 32, v⟩] ∧
      (tickOnce^[32] s).duty = some v := by
  have hlt : fc.toNat < 32 := fc.isLt
  generalize hj : (62 - fc.toNat) % 32 = j
  have hsplit : tickOnce^[32] s = tickOnce^[31 - j] (tickOnce (tickOnce^[j] s)) := by
    rw [← Function.iterate_succ_apply' tickOnce, ← Function.iterate_add_apply]
    congr 1
    omega
  obtain ⟨hfc, ⟨y, hy⟩, -⟩ := iterate_tickOnce_registers hf hx j
  obtain ⟨hbefore, -⟩ := iterate_tickOnce_of_ne_30 hf hx (n := j) fun k hk => by omega
  have hwriting : (fc + BitVec.ofNat 5 j).toNat = 30 := by
    rw [BitVec.toNat_add, BitVec.toNat_ofNat]
    omega
  obtain ⟨v, hwrites, hduty⟩ := tickOnce_of_eq_30 hfc hy hwriting
  have hnext : (inc5 (fc + BitVec.ofNat 5 j)).toNat = 31 := by rw [inc5_toNat, hwriting]
  obtain ⟨hafter, hkept⟩ := iterate_tickOnce_of_ne_30 (tickOnce_fc hfc hy) (tickOnce_sr hfc hy) (n := 31 - j)
    fun k hk => by omega
  rw [hsplit]
  refine ⟨v, ?_, hkept.trans hduty⟩
  rw [hafter, hwrites, hbefore, iterate_tickOnce_opIndex hf hx j]

end Iterate

/-! ### The first reset -/

/-- The state right after the `RESET` that follows power-on. -/
def afterFirstReset (p : Params) : State :=
  countOp (noWrite (commitFc 0#5 (writeSr p.srSeed (State.powerOn p))))

theorem step_powerOn_reset (p : Params) (k : Nat) :
    step { State.powerOn p with pending := .command 0b10 :: List.replicate k (.command 0b01) } =
      .next (withTicks k (afterFirstReset p)) := by
  have hpending : (afterFirstReset p).pending = [] := rfl
  rw [step_reset rfl rfl, withTicks, hpending, List.append_nil]
  rfl

/-! ### The obligations -/

/-- Settles O49: of 32 ticks one starts at position 30, one lands on 0 and four land on multiples of 8. -/
theorem oneWriteAndOneToFourAdvancesPerFrame : Obligations.OneWriteAndOneToFourAdvancesPerFrame := by
  unfold Obligations.OneWriteAndOneToFourAdvancesPerFrame
  intro s fc x hf hx
  obtain ⟨k, hsr, hlow, hhigh⟩ := iterate_tickOnce_advances hf hx 32
  obtain ⟨v, hwrites, hduty⟩ := iterate_tickOnce_32_writes hf hx
  have hfc : (tickOnce^[32] s).fc = s.fc := by
    rw [iterate_tickOnce_fc hf hx, hf]
    exact congrArg some (BitVec.add_zero fc)
  exact ⟨_, k, v, _, runTicks_eq_iterate 32 hf hx, by omega, by omega, hsr, hwrites, rfl, hduty, hfc⟩

/-- Settles O51: the reset puts the seed into `SR`, and from position 0 the first seven ticks land on closed gates and
write nothing. -/
theorem lowFrameCountersAreReachable : Obligations.LowFrameCountersAreReachable := by
  unfold Obligations.LowFrameCountersAreReachable
  intro p k x hk
  have hf : (afterFirstReset { p with srSeed := x }).fc = some 0#5 := rfl
  have hx : (afterFirstReset { p with srSeed := x }).sr = some x := rfl
  have hclosed : ∀ j < k, gate (0#5 + BitVec.ofNat 5 (j + 1)) x = false := fun j hj =>
    gate_eq_false_of_mod_ne_zero (by rw [BitVec.zero_add, BitVec.toNat_ofNat]; omega) x
  have hquiet : ∀ j < k, ((0#5).toNat + j) % 32 ≠ 30 := fun j hj => by
    rw [BitVec.toNat_zero]
    omega
  obtain ⟨hwrites, -⟩ := iterate_tickOnce_of_ne_30 hf hx hquiet
  have hfc := iterate_tickOnce_fc hf hx k
  rw [BitVec.zero_add] at hfc
  refine ⟨_, ?run, hfc, iterate_tickOnce_sr_of_closed hf hx hclosed, hwrites⟩
  rw [run_succ_of_step (step_powerOn_reset _ k)]
  exact runTicks_eq_iterate k hf hx

end Sys2Proof.Machine
end

section
/-!
PROOFS. Rule R108: three short cycles of the normative step, with their exact lengths. The step `f` is linear. The states
of the first two cycles satisfy `f^[4] x = x ^^^ f^[3] x` and `f^[9] x = x ^^^ f^[8] x`, and squaring such a trinomial
relation two or three times gives the period, so no orbit is walked. The third state is the XOR of one of each kind, and
the periods of its two parts are coprime.
-/

namespace Sys2Proof.Machine

open Function (IsPeriodicPt minimalPeriod)

section Linear

variable {f : SrWord → SrWord} (hf : ∀ x y, f (x ^^^ y) = f x ^^^ f y)
include hf

theorem iterate_xor (n : Nat) (x y : SrWord) : f^[n] (x ^^^ y) = f^[n] x ^^^ f^[n] y :=
  Function.Semiconj₂.iterate (op := (· ^^^ ·)) hf n x y

/-! ### Trinomial relations -/

theorem trinomial_iterate {n m : Nat} {x : SrWord} (h : f^[n] x = x ^^^ f^[m] x) (j : Nat) :
    f^[n + j] x = f^[j] x ^^^ f^[m + j] x := by
  rw [Nat.add_comm n, Nat.add_comm m, Function.iterate_add_apply, h, iterate_xor hf, Function.iterate_add_apply]

/-- Squaring: the middle terms cancel. -/
theorem trinomial_double {n m : Nat} {x : SrWord} (h : f^[n] x = x ^^^ f^[m] x) :
    f^[n + n] x = x ^^^ f^[m + m] x := by
  rw [trinomial_iterate hf h n, Nat.add_comm m n, trinomial_iterate hf h m, h, BitVec.xor_assoc,
    ← BitVec.xor_assoc (f^[m] x), BitVec.xor_self, BitVec.zero_xor]

theorem isPeriodicPt_15_of_trinomial {x : SrWord} (h : f^[4] x = x ^^^ f^[3] x) : IsPeriodicPt f 15 x := by
  have h16 : f^[16] x = x ^^^ f^[12] x := trinomial_double hf (trinomial_double hf h)
  have hshift : f^[16] x = f^[12] x ^^^ f^[15] x := trinomial_iterate hf h 12
  rw [h16, BitVec.xor_comm x, BitVec.xor_right_inj] at hshift
  exact hshift.symm

theorem isPeriodicPt_73_of_trinomial {x : SrWord} (h : f^[9] x = x ^^^ f^[8] x) : IsPeriodicPt f 73 x := by
  have h72 : f^[72] x = x ^^^ f^[64] x := trinomial_double hf (trinomial_double hf (trinomial_double hf h))
  have hshift : f^[73] x = f^[64] x ^^^ f^[72] x := trinomial_iterate hf h 64
  rw [h72, BitVec.xor_comm x, ← BitVec.xor_assoc, BitVec.xor_self, BitVec.zero_xor] at hshift
  exact hshift

/-! ### The period of a sum -/

/-- A period of the sum is, times a period of one part, a period of the other part. -/
theorem minimalPeriod_dvd_mul_of_isPeriodicPt_xor {x y : SrWord} {n k : Nat} (hxy : IsPeriodicPt f n (x ^^^ y))
    (hy : IsPeriodicPt f k y) : minimalPeriod f x ∣ n * k := by
  have hsum : f^[n * k] x ^^^ f^[n * k] y = x ^^^ y := by
    rw [← iterate_xor hf]
    exact hxy.mul_const k
  rw [(hy.const_mul n).eq, BitVec.xor_left_inj] at hsum
  exact IsPeriodicPt.minimalPeriod_dvd hsum

theorem minimalPeriod_xor_of_coprime {x y : SrWord}
    (hco : Nat.Coprime (minimalPeriod f x) (minimalPeriod f y)) :
    minimalPeriod f (x ^^^ y) = minimalPeriod f x * minimalPeriod f y := by
  have hx := Function.isPeriodicPt_minimalPeriod f x
  have hy := Function.isPeriodicPt_minimalPeriod f y
  have hxy := Function.isPeriodicPt_minimalPeriod f (x ^^^ y)
  apply Nat.dvd_antisymm
  · apply IsPeriodicPt.minimalPeriod_dvd
    calc f^[minimalPeriod f x * minimalPeriod f y] (x ^^^ y)
      _ = f^[minimalPeriod f x * minimalPeriod f y] x ^^^ f^[minimalPeriod f x * minimalPeriod f y] y :=
        iterate_xor hf ..
      _ = x ^^^ y := by rw [(hx.mul_const _).eq, (hy.const_mul _).eq]
  · have hyx : IsPeriodicPt f (minimalPeriod f (x ^^^ y)) (y ^^^ x) := by rwa [BitVec.xor_comm y]
    exact hco.mul_dvd_of_dvd_of_dvd
      (hco.dvd_of_dvd_mul_right (minimalPeriod_dvd_mul_of_isPeriodicPt_xor hf hxy hy))
      (hco.symm.dvd_of_dvd_mul_right (minimalPeriod_dvd_mul_of_isPeriodicPt_xor hf hyx hx))

/-! ### The exact lengths -/

theorem minimalPeriod_eq_15 {x : SrWord} (h : f^[4] x = x ^^^ f^[3] x) (h3 : f^[3] x ≠ x) (h5 : f^[5] x ≠ x) :
    minimalPeriod f x = 15 := by
  have hdvd : minimalPeriod f x ∣ 15 := (isPeriodicPt_15_of_trinomial hf h).minimalPeriod_dvd
  have hdvd3 : ¬ minimalPeriod f x ∣ 3 := fun hd => h3 (Function.isPeriodicPt_iff_minimalPeriod_dvd.2 hd)
  have hdvd5 : ¬ minimalPeriod f x ∣ 5 := fun hd => h5 (Function.isPeriodicPt_iff_minimalPeriod_dvd.2 hd)
  have hdivisors : ∀ d ≤ 15, d ∣ 15 → ¬ d ∣ 3 → ¬ d ∣ 5 → d = 15 := by decide
  exact hdivisors _ (Nat.le_of_dvd (by decide) hdvd) hdvd hdvd3 hdvd5

theorem minimalPeriod_eq_73 {x : SrWord} (h : f^[9] x = x ^^^ f^[8] x) (h1 : f x ≠ x) : minimalPeriod f x = 73 := by
  have hprime : Fact (Nat.Prime 73) := ⟨by norm_num⟩
  exact Function.minimalPeriod_eq_prime (isPeriodicPt_73_of_trinomial hf h) h1

end Linear

theorem minimalPeriod_0x0ECA1C61 : minimalPeriod (lfsrStep .onOne) 0x0ECA1C61#32 = 15 :=
  minimalPeriod_eq_15 lfsrStep_onOne_xor (by decide) (by decide) (by decide)

theorem minimalPeriod_0x007FBF91 : minimalPeriod (lfsrStep .onOne) 0x007FBF91#32 = 73 :=
  minimalPeriod_eq_73 lfsrStep_onOne_xor (by decide) (by decide)

/-- `0x000761DF` is a state of the cycle of length 15 XOR a state of another cycle of length 73. -/
theorem minimalPeriod_0x000761DF : minimalPeriod (lfsrStep .onOne) 0x000761DF#32 = 1095 := by
  have h15 : minimalPeriod (lfsrStep .onOne) 0x1D9438C2#32 = 15 :=
    minimalPeriod_eq_15 lfsrStep_onOne_xor (by decide) (by decide) (by decide)
  have h73 : minimalPeriod (lfsrStep .onOne) 0x1D93591D#32 = 73 :=
    minimalPeriod_eq_73 lfsrStep_onOne_xor (by decide) (by decide)
  have hsum : 0x000761DF#32 = 0x1D9438C2#32 ^^^ 0x1D93591D#32 := by decide
  rw [hsum, minimalPeriod_xor_of_coprime lfsrStep_onOne_xor (by rw [h15, h73]; decide), h15, h73]

/-- A state whose least period is `n` returns after `n` steps and not before. -/
theorem iterate_eq_and_ne_of_minimalPeriod_eq {f : SrWord → SrWord} {x : SrWord} {n : Nat}
    (h : minimalPeriod f x = n) : f^[n] x = x ∧ ∀ k, 0 < k → k < n → f^[k] x ≠ x := by
  subst h
  exact ⟨Function.iterate_minimalPeriod, fun k hpos hlt =>
    Function.not_isPeriodicPt_of_pos_of_lt_minimalPeriod (Nat.ne_of_gt hpos) hlt⟩

/-! ### The obligation -/

/-- Settles O43, by the least period of each of the three states. -/
theorem shortLfsrCycles : Obligations.ShortLfsrCycles := by
  unfold Obligations.ShortLfsrCycles
  simp only [List.forall_mem_cons]
  exact ⟨iterate_eq_and_ne_of_minimalPeriod_eq minimalPeriod_0x0ECA1C61,
    iterate_eq_and_ne_of_minimalPeriod_eq minimalPeriod_0x007FBF91,
    iterate_eq_and_ne_of_minimalPeriod_eq minimalPeriod_0x000761DF, nofun⟩

end Sys2Proof.Machine
end
